-- ==== Sys2Proof/Word.lean ====
section
/-! DEFINITION. The word types of the Ares-M signal core and their plainest arithmetic (00_scope.md R8). -/

namespace Sys2Proof

/-- A queue word (30_encoding.md R76), `W` bits, as the unsigned number below `2 ^ W` it is (00_scope.md R8). `W` is a
parameter of the configuration, so no width stands in the type; where a word is cut to `W` bits the operation says so
(log 13). -/
abbrev Word := Nat

/-- A row of the instruction table, format `ROW32` (30_encoding.md R80). -/
abbrev RowWord := BitVec 32

/-- A command word, format `CMD19` (30_encoding.md R87). -/
abbrev CmdWord := BitVec 19

/-- A channel value (10_state.md R29). -/
abbrev Byte := BitVec 8

/-- A bit sequence: index 0 is transmitted first (00_scope.md R8). -/
abbrev Bits := List Bool

end Sys2Proof
end

