-- ==== Sys2Proof/Syntax.lean ====
section
/-! DEFINITION. The operations of the Ares-M signal core: one constructor of `Instr` per row of
spec/opcode_table.json, and the calls of the channel control API. -/

namespace Sys2Proof

/-- The fields every row carries (30_encoding.md R80 to R82): side enable, side value, duration minus one. -/
structure RowHead where
  /-- `se`, bit 28 -/
  se : Bool
  /-- `sv`, bit 27 -/
  sv : Bool
  /-- `cyc`, bits 26:16; the row occupies `cyc + 1` ticks -/
  cyc : BitVec 11
deriving DecidableEq, Repr, Inhabited

/-- Every row of spec/opcode_table.json. -/
inductive Instr where
  /-- 40_timing_automaton.md R111 -/
  | nop (h : RowHead)
  /-- 40_timing_automaton.md R112: `n` bits consumed, `d` = also drive them on `PINS` -/
  | shift (h : RowHead) (n : BitVec 2) (d : Bool)
  /-- 40_timing_automaton.md R113 -/
  | setp (h : RowHead) (lit : BitVec 8)
  /-- 40_timing_automaton.md R114 -/
  | ldc (h : RowHead) (imm : BitVec 16)
  /-- 40_timing_automaton.md R115 -/
  | jmp (h : RowHead) (target : BitVec 5)
  /-- 40_timing_automaton.md R116: branch when `BIT` = `b` (the spec's operand `s`) -/
  | jbit (h : RowHead) (b : Bool) (target : BitVec 5)
  /-- 40_timing_automaton.md R117 -/
  | jctr (h : RowHead) (target : BitVec 5)
  /-- 30_encoding.md R85: `op` = 111, with the 29 bits below it -/
  | rowReserved (x : BitVec 29)
  /-- 44_streamer_commands.md R180 -/
  | setChannel (a : BitVec 8) (v : Byte)
  /-- 44_streamer_commands.md R181 -/
  | setTrackPower (on : Bool)
  /-- 44_streamer_commands.md R182 -/
  | start
  /-- 44_streamer_commands.md R183 -/
  | stop
  /-- 44_streamer_commands.md R187 -/
  | rebuild
  /-- 30_encoding.md R88: `cmd` = 101, with the 16 bits below it -/
  | cmdReserved5 (x : BitVec 16)
  /-- 30_encoding.md R88: `cmd` = 110 -/
  | cmdReserved6 (x : BitVec 16)
  /-- 30_encoding.md R88: `cmd` = 111 -/
  | cmdReserved7 (x : BitVec 16)
  /-- 44_streamer_commands.md R184 -/
  | push (w : Word)
  /-- 42_frame_encoder.md R150 -/
  | encodeByte (v : Byte)
  /-- 42_frame_encoder.md R151: position 0 of the 12 bits is bit 11 of `x` -/
  | decodeByte (x : BitVec 12)
  /-- 42_frame_encoder.md R152 -/
  | encodeHeader (b : BitVec 4) (tp : Bool)
  /-- 42_frame_encoder.md R153: `ct` is a snapshot of the ChannelTable (90_conflicts.md C5) -/
  | encodeBlock (b : BitVec 4) (ct : List Byte) (tp : Bool)
  /-- 42_frame_encoder.md R155 -/
  | encodeFrame (ct : List Byte) (tp : Bool)
  /-- 42_frame_encoder.md R156 -/
  | polarityMap (bits : Bits)
  /-- 43_word_packer.md R170 -/
  | pack (bits : Bits) (wordWidth bitsPerSymbolUnit : Nat)
  /-- 43_word_packer.md R171 -/
  | unpack (words : List Nat) (wordWidth : Nat)
deriving DecidableEq, Repr, Inhabited

/-- The calls of the channel control API (30_encoding.md R87, R92). The address is the command word's 8-bit
field (DESIGN CHOICE, log 17: safe); the value is any number, masked when the call becomes a word (60_exceptions.md
R202). -/
inductive ApiCall where
  | setChannel (address : BitVec 8) (value : Nat)
  | setTrackPower (on : Bool)
  | start
  | stop
deriving DecidableEq, Repr, Inhabited

/-- The rows an automaton table can hold (30_encoding.md R84, R85). -/
def Instr.isRow : Instr → Bool
  | .nop _ | .shift _ _ _ | .setp _ _ | .ldc _ _ | .jmp _ _ | .jbit _ _ _ | .jctr _ _ | .rowReserved _ => true
  | .setChannel _ _ | .setTrackPower _ | .start | .stop | .rebuild | .cmdReserved5 _ | .cmdReserved6 _
  | .cmdReserved7 _ | .push _ | .encodeByte _ | .decodeByte _ | .encodeHeader _ _ | .encodeBlock _ _ _
  | .encodeFrame _ _ | .polarityMap _ | .pack _ _ _ | .unpack _ _ => false

/-- The pure functions of 42_frame_encoder.md and 43_word_packer.md. -/
def Instr.isFunction : Instr → Bool
  | .encodeByte _ | .decodeByte _ | .encodeHeader _ _ | .encodeBlock _ _ _ | .encodeFrame _ _ | .polarityMap _
  | .pack _ _ _ | .unpack _ _ => true
  | .nop _ | .shift _ _ _ | .setp _ _ | .ldc _ _ | .jmp _ _ | .jbit _ _ _ | .jctr _ _ | .rowReserved _
  | .setChannel _ _ | .setTrackPower _ | .start | .stop | .rebuild | .cmdReserved5 _ | .cmdReserved6 _
  | .cmdReserved7 _ | .push _ => false

end Sys2Proof
end

