-- ==== Sys2Proof/Config.lean ====
section
/-! DEFINITION. What an implementation fixes (00_scope.md R6, 10_state.md R30), the turns of the agents
(10_state.md R10) and the one free value of the model: the order of those turns. -/

namespace Sys2Proof

/-- `VARIANT` (00_scope.md R6). -/
inductive Variant where
  | twoLine
  | differential
deriving DecidableEq, Repr, Inhabited

/-- `SHIFT_DIR`: hardwired (10_state.md T-R30). -/
inductive ShiftDir where
  | msbFirst
deriving DecidableEq, Repr

/-- `JOIN`: hardwired (10_state.md T-R30). -/
inductive FifoJoin where
  | inputOnly
deriving DecidableEq, Repr

/-- `CFG`, the configuration record (10_state.md R30) with the parameters of 00_scope.md R6 that may vary. -/
structure Cfg where
  /-- `OUT_BASE`: opaque, no rule reads it -/
  outBase : Nat
  /-- `SIDE_BASE`: opaque, no rule reads it -/
  sideBase : Nat
  /-- `NPINS` -/
  npins : Nat
  /-- `SIDE_EN` -/
  sideEn : Bool
  /-- `WORD_WIDTH`, the spec's `W` -/
  wordWidth : Nat
  /-- `CLKDIV`: opaque, no rule reads it -/
  clkDiv : Nat
  /-- `CYCLE_NS` -/
  cycleNs : Nat
  /-- `QDEPTH` -/
  qdepth : Nat
  /-- `VARIANT` -/
  variant : Variant
  /-- `SYMBOL_BITS` -/
  symbolBits : Nat
  /-- `ADDR_INVERT` -/
  addrInvert : Bool
  /-- `POL_INIT` -/
  polInit : Bool
  /-- `PROG` (10_state.md R22); the empty list is "no table loaded" (93_implementation_defined.md U8) -/
  prog : List RowWord
deriving DecidableEq, Repr, Inhabited

/-- `PROG_LEN` (10_state.md R22). -/
abbrev Cfg.progLen (c : Cfg) : Nat := c.prog.length

/-- `PULL_THRESH`: hardwired to `WORD_WIDTH` (10_state.md T-R30). -/
def Cfg.pullThresh (c : Cfg) : Nat := c.wordWidth

/-- `SHIFT_DIR`: "always MSB-first here" (10_state.md T-R30). -/
def Cfg.shiftDir (_ : Cfg) : ShiftDir := .msbFirst

/-- `JOIN`: "input-only, to maximize buffering depth" (10_state.md T-R30). -/
def Cfg.join (_ : Cfg) : FifoJoin := .inputOnly

/-- Whether two configurations agree on the parameters of 00_scope.md R6 (all of `CFG` but the table, the pins
the excluded loader assigns and the side group). -/
def Cfg.sameParams (c d : Cfg) : Bool :=
  decide (c.npins = d.npins) && decide (c.wordWidth = d.wordWidth) && decide (c.cycleNs = d.cycleNs)
    && decide (c.qdepth = d.qdepth) && decide (c.variant = d.variant) && decide (c.symbolBits = d.symbolBits)
    && decide (c.addrInvert = d.addrInvert) && decide (c.polInit = d.polInit)

/-- One turn of one agent (10_state.md R10): the unit of the interleaving of 20_memory.md R56. -/
inductive Turn where
  /-- one cycle of the automaton's clock (40_timing_automaton.md R101) -/
  | tick
  /-- the Streamer takes an enabled step (44_streamer_commands.md R186); where a stop is requested and a push is
  enabled too, `finish` says which of the two it takes (R189, 93_implementation_defined.md U10) -/
  | streamer (finish : Bool)
  /-- the application presents a command word (30_encoding.md R87) -/
  | command (w : CmdWord)
  /-- the application makes an API call (30_encoding.md R92) -/
  | api (c : ApiCall)
  /-- a caller runs one of the pure functions (42_frame_encoder.md, 43_word_packer.md) -/
  | call (i : Instr)
  /-- the excluded loader places a configuration (00_scope.md R5, 70_reset_and_hazards.md R226) -/
  | load (c : Cfg)
deriving DecidableEq, Repr, Inhabited

namespace Config

/-- `N_CHANNELS` (00_scope.md R6). -/
abbrev nChannels : Nat := 112
/-- `N_BLOCKS` (00_scope.md R6). -/
abbrev nBlocks : Nat := 16
/-- `SLOTS` (00_scope.md R6). -/
abbrev slots : Nat := 7
/-- `ENC_BITS` (00_scope.md R6). -/
abbrev encBits : Nat := 12
/-- `BLOCK_BITS` (00_scope.md R6). -/
abbrev blockBits : Nat := 96
/-- `FRAME_BITS` (00_scope.md R6). -/
abbrev frameBits : Nat := 1536
/-- `PROG_MAX` (00_scope.md R6). -/
abbrev progMax : Nat := 32
/-- `SYM_PLUS` (00_scope.md R6). -/
abbrev symPlus : BitVec 2 := 0b10#2
/-- `SYM_MINUS` (00_scope.md R6). -/
abbrev symMinus : BitVec 2 := 0b01#2
/-- What a ChannelTable entry nothing has written reads as: its reset value (10_state.md T-R35). -/
abbrev ctReset : Byte := 0#8

/-- `T_SX_LOW`, microseconds (00_scope.md R6). -/
abbrev tSxLow : Nat := 10
/-- `T_SX_HIGH`, microseconds. -/
abbrev tSxHigh : Nat := 40
/-- `T_DCC_ONE_HALF`, microseconds. -/
abbrev tDccOneHalf : Nat := 58
/-- `T_DCC_ZERO_HALF`, microseconds. -/
abbrev tDccZeroHalf : Nat := 100
/-- `T_CUTOUT`, microseconds. -/
abbrev tCutout : Nat := 450

/-- The configuration at construction. The defaults of 00_scope.md R6; `VARIANT` has no default there and no table
is loaded before the loader places one (70_reset_and_hazards.md R226). DESIGN CHOICE, log 5: unsafe. -/
def construction : Cfg where
  outBase := 0
  sideBase := 0
  npins := 1
  sideEn := true
  wordWidth := 32
  clkDiv := 0
  cycleNs := 1000
  qdepth := 8
  variant := .twoLine
  symbolBits := 1
  addrInvert := true
  polInit := false
  prog := []

/-- The order in which the agents move where no turn has been decided: a free value, applied to the number of the
turn (20_memory.md R56, 93_implementation_defined.md U4). Nothing constrains it: every statement holds for every
interleaving. Log 1: safe. -/
opaque freeTurn : Nat → Turn

end Config

end Sys2Proof
end

