-- ==== Sys2Proof/WellFormed.lean ====
section
/-! DEFINITION. Which instructions and configurations are well-formed (30_encoding.md R81, R85, R86, R88;
43_word_packer.md R172; 93_implementation_defined.md U6, U8). -/

namespace Sys2Proof

/-- The side-channel conditions of a row (30_encoding.md R81, R85): `sv` is 0 where `se` is 0, and a side write
needs a side group. -/
def RowHead.wellFormed (c : Cfg) (h : RowHead) : Bool :=
  if h.se then c.sideEn else !h.sv

/-- The value conditions of 30_encoding.md R85 for a row; of R88 for a command; the operand domains of the pure
functions (42_frame_encoder.md R153, R155; 43_word_packer.md R170 to R172). -/
def Instr.wellFormed (c : Cfg) : Instr → Bool
  | .nop h => h.wellFormed c
  | .shift h n _ => h.wellFormed c && (decide (n = 1#2) || decide (n = 2#2)) && decide (n.toNat = c.symbolBits)
  | .setp h lit => h.wellFormed c && decide (lit.toNat < 2 ^ c.npins)
  | .ldc h _ => h.wellFormed c
  | .jmp h t => h.wellFormed c && decide (t.toNat < c.progLen)
  | .jbit h _ t => h.wellFormed c && decide (t.toNat < c.progLen)
  | .jctr h t => h.wellFormed c && decide (t.toNat < c.progLen)
  | .rowReserved _ => false
  | .setChannel a _ => decide (a.toNat < Config.nChannels)
  | .setTrackPower _ => true
  | .start => true
  | .stop => true
  | .rebuild => true
  | .cmdReserved5 _ => false
  | .cmdReserved6 _ => false
  | .cmdReserved7 _ => false
  | .push w => decide (w < 2 ^ c.wordWidth)
  | .encodeByte _ => true
  | .decodeByte _ => true
  | .encodeHeader _ _ => true
  | .encodeBlock _ ct _ => decide (ct.length = Config.nChannels)
  | .encodeFrame ct _ => decide (ct.length = Config.nChannels)
  | .polarityMap _ => true
  | .pack bits w u =>
      decide (1 ≤ w) && (decide (u = 1) || decide (u = 2)) && decide (w % u = 0) && decide (bits.length % u = 0)
  | .unpack words w => decide (1 ≤ w) && words.all (fun x => decide (x < 2 ^ w))

/-- The legal values of `CFG` but for the table (10_state.md T-R30, 93_implementation_defined.md U8). Of `W`: any that
`SYMBOL_BITS` divides (92_eei_decisions.md D2, 70_reset_and_hazards.md R234), also above the 32 of T-R30 (DESIGN CHOICE,
log 13: safe at `W` up to 32, unsafe above). -/
def Cfg.paramsLegal (c : Cfg) : Bool :=
  (decide (c.symbolBits = 1) || decide (c.symbolBits = 2))
    && decide (1 ≤ c.wordWidth) && decide (c.wordWidth % c.symbolBits = 0)
    && decide (c.npins = c.symbolBits)
    && decide (1000 ≤ c.cycleNs) && decide (c.cycleNs ≤ 2000)
    && decide (1 ≤ c.qdepth)
    && (match c.variant with
        | .twoLine => decide (c.symbolBits = 1)
        | .differential => decide (c.symbolBits = 2))

end Sys2Proof
end

