-- ==== Sys2Proof/Decode.lean ====
section
/-! DEFINITION. The decoder of the three ports (rows, command words, push words), total and rejecting by name, and
after it the encoder (30_encoding.md R80 to R89). -/

namespace Sys2Proof

/-- Why a word is no instruction of its port. -/
inductive DecodeError where
  /-- `op` 000 to 110 with a must-be-zero bit of `arg` set (30_encoding.md R85) -/
  | rowMustBeZero
  /-- `cmd` 000 to 100 with a must-be-zero field non-zero (30_encoding.md R88) -/
  | commandMustBeZero
deriving DecidableEq, Repr

/-- `se`, `sv`, `cyc` of a row word (30_encoding.md T-R80). -/
def rowHead (w : RowWord) : RowHead := ⟨w.getLsbD 28, w.getLsbD 27, w.extractLsb' 16 11⟩

/-- The row a 32-bit word of `PROG` is, by match and mask (30_encoding.md T-R84, then `op` = 111 of R85). -/
def decodeRow (w : RowWord) : Except DecodeError Instr :=
  if w &&& 0xE000FFFF#32 = 0x00000000#32 then .ok (.nop (rowHead w))
  else if w &&& 0xE000FEFC#32 = 0x20000000#32 then .ok (.shift (rowHead w) (w.extractLsb' 0 2) (w.getLsbD 8))
  else if w &&& 0xE000FF00#32 = 0x40000000#32 then .ok (.setp (rowHead w) (w.extractLsb' 0 8))
  else if w &&& 0xE0000000#32 = 0x60000000#32 then .ok (.ldc (rowHead w) (w.extractLsb' 0 16))
  else if w &&& 0xE000FFE0#32 = 0x80000000#32 then .ok (.jmp (rowHead w) (w.extractLsb' 0 5))
  else if w &&& 0xE000FEE0#32 = 0xA0000000#32 then .ok (.jbit (rowHead w) (w.getLsbD 8) (w.extractLsb' 0 5))
  else if w &&& 0xE000FFE0#32 = 0xC0000000#32 then .ok (.jctr (rowHead w) (w.extractLsb' 0 5))
  else if w &&& 0xE0000000#32 = 0xE0000000#32 then .ok (.rowReserved (w.extractLsb' 0 29))
  else .error .rowMustBeZero

/-- The operation a command word is (30_encoding.md T-R87b and R88). That an operation is decoded does not say the
application may issue it: REBUILD is the Streamer's (90_conflicts.md C11). -/
def decodeCommand (w : CmdWord) : Except DecodeError Instr :=
  if w &&& 0x70000#19 = 0x00000#19 then .ok (.setChannel (w.extractLsb' 8 8) (w.extractLsb' 0 8))
  else if w &&& 0x7FFFE#19 = 0x10000#19 then .ok (.setTrackPower (w.getLsbD 0))
  else if w = 0x20000#19 then .ok .start
  else if w = 0x30000#19 then .ok .stop
  else if w = 0x40000#19 then .ok .rebuild
  else if w &&& 0x70000#19 = 0x50000#19 then .ok (.cmdReserved5 (w.extractLsb' 0 16))
  else if w &&& 0x70000#19 = 0x60000#19 then .ok (.cmdReserved6 (w.extractLsb' 0 16))
  else if w &&& 0x70000#19 = 0x70000#19 then .ok (.cmdReserved7 (w.extractLsb' 0 16))
  else .error .commandMustBeZero

/-- A word at the port it is presented to (30_encoding.md R80, R87, R89). -/
inductive Encoded where
  | row (w : RowWord)
  | command (w : CmdWord)
  | queueWord (w : Word)
deriving DecidableEq, Repr

/-- The decoder of all ports. Every queue word is legal (30_encoding.md R89). -/
def decode : Encoded → Except DecodeError Instr
  | .row w => decodeRow w
  | .command w => decodeCommand w
  | .queueWord w => .ok (.push w)

/-- A row word from its fields (30_encoding.md T-R80). -/
def rowWord (op : BitVec 3) (h : RowHead) (arg : BitVec 16) : RowWord :=
  op ++ BitVec.ofBool h.se ++ BitVec.ofBool h.sv ++ h.cyc ++ arg

/-- A command word from its fields (30_encoding.md T-R87a). -/
def cmdWord (cmd : BitVec 3) (a : BitVec 8) (v : BitVec 8) : CmdWord := cmd ++ a ++ v

/-- `arg` of a SHIFT row: `d` at bit 8, `n` at bits 1:0 (30_encoding.md T-R83). -/
def shiftArg (n : BitVec 2) (d : Bool) : BitVec 16 := 0#7 ++ BitVec.ofBool d ++ 0#6 ++ n

/-- `arg` of a branch row: `s` at bit 8 (0 but for JBIT), `target` at bits 4:0 (30_encoding.md T-R83). -/
def branchArg (b : Bool) (target : BitVec 5) : BitVec 16 := 0#7 ++ BitVec.ofBool b ++ 0#3 ++ target

/-- The word of an instruction at its port (30_encoding.md T-R80, T-R83, T-R87a, T-R87b, R89). The pure functions are
not encoded objects (R70): they have no instruction word. -/
def encode : Instr → Option Encoded
  | .nop h => some (.row (rowWord 0b000#3 h 0#16))
  | .shift h n d => some (.row (rowWord 0b001#3 h (shiftArg n d)))
  | .setp h lit => some (.row (rowWord 0b010#3 h (0#8 ++ lit)))
  | .ldc h imm => some (.row (rowWord 0b011#3 h imm))
  | .jmp h t => some (.row (rowWord 0b100#3 h (branchArg false t)))
  | .jbit h b t => some (.row (rowWord 0b101#3 h (branchArg b t)))
  | .jctr h t => some (.row (rowWord 0b110#3 h (branchArg false t)))
  | .rowReserved x => some (.row (0b111#3 ++ x))
  | .setChannel a v => some (.command (cmdWord 0b000#3 a v))
  | .setTrackPower on => some (.command (cmdWord 0b001#3 0#8 (0#7 ++ BitVec.ofBool on)))
  | .start => some (.command (cmdWord 0b010#3 0#8 0#8))
  | .stop => some (.command (cmdWord 0b011#3 0#8 0#8))
  | .rebuild => some (.command (cmdWord 0b100#3 0#8 0#8))
  | .cmdReserved5 x => some (.command (0b101#3 ++ x))
  | .cmdReserved6 x => some (.command (0b110#3 ++ x))
  | .cmdReserved7 x => some (.command (0b111#3 ++ x))
  | .push w => some (.queueWord w)
  | .encodeByte _ => none
  | .decodeByte _ => none
  | .encodeHeader _ _ => none
  | .encodeBlock _ _ _ => none
  | .encodeFrame _ _ => none
  | .polarityMap _ => none
  | .pack _ _ _ => none
  | .unpack _ _ => none

/-- The command word an API call becomes (30_encoding.md R87): `a` is the address and `v` is `value & 0xFF`. -/
def apiWord : ApiCall → CmdWord
  | .setChannel address value => cmdWord 0b000#3 address (BitVec.ofNat 8 value)
  | .setTrackPower on => cmdWord 0b001#3 0#8 (0#7 ++ BitVec.ofBool on)
  | .start => cmdWord 0b010#3 0#8 0#8
  | .stop => cmdWord 0b011#3 0#8 0#8

/-- The instruction of a table word. A number of 32 bits may be a row or a push word and the table gives the port no
bits: it is read as the row it is, and as a word at the push port where no row of the table matches it (log 10). A
command word has 19 bits, three bytes when counted in whole bytes. -/
def decodeTableWord (nbits w : Nat) : Option Instr :=
  if nbits = 32 then
    match decodeRow (BitVec.ofNat 32 w) with
    | .ok i => some i
    | .error _ => some (.push (w % 2 ^ 32))
  else if nbits = 24 ∨ nbits = 19 then
    if w < 2 ^ 19 then
      match decodeCommand (BitVec.ofNat 19 w) with
      | .ok i => some i
      | .error _ => none
    else none
  else none

end Sys2Proof
end

