-- ==== Sys2Proof/Machine/State.lean ====
section
/-! DEFINITION. The state of the Ares-M signal core (10_state.md), why a step can stop, and the machine right after
reset (10_state.md T-R35). -/

namespace Sys2Proof.Machine

/-- The causes of `ConfigError` (60_exceptions.md T-R201). -/
inductive ConfigErrorCode where
  /-- code 1: SET_CHANNEL with an address above 111 -/
  | badAddress
  /-- code 2: a reserved or malformed command word, or REBUILD presented by the application -/
  | badCommand
deriving DecidableEq, Repr

/-- The number of a cause (60_exceptions.md T-R201; `OK` is 0). -/
def ConfigErrorCode.number : ConfigErrorCode → Nat
  | .badAddress => 1
  | .badCommand => 2

/-- What the last command or function call returned to its caller. The model's own record: nothing in the hardware
keeps it (60_exceptions.md R200; log 6). -/
inductive Reply where
  /-- nothing has been returned since construction -/
  | none
  /-- a command that did not raise -/
  | ok
  /-- `raise ConfigError(code)`, with the offending command word (60_exceptions.md R201) -/
  | configError (code : ConfigErrorCode) (word : CmdWord)
  /-- the bit sequence a function returned -/
  | bits (b : Bits)
  /-- the channel value DECODE_BYTE returned -/
  | byte (v : Byte)
  /-- the words PACK returned -/
  | words (ws : List Nat)
deriving DecidableEq, Repr

/-- Why the machine stops with a fault. Both are accesses to an element that does not exist; no run from a legal
START reaches them (log 11). -/
inductive Fault where
  /-- raised by the tick: `PROG[PC]` with `PC` not below `PROG_LEN` (10_state.md R18). Safe. -/
  | progIndex
  /-- raised by the Streamer's push step: `FRAME[IDX]` with `IDX` not below the frame's length (10_state.md R28).
  Safe. -/
  | frameIndex
deriving DecidableEq, Repr

/-- Why the machine gives no meaning. -/
inductive Refusal where
  /-- raised by exec's arm of an instruction that has no meaning yet. Safe. -/
  | notModelled (mnemonic : String)
  /-- raised by a tick or a row: a reserved row (30_encoding.md R85, "refuse"). Safe. -/
  | reservedRow
  /-- raised by START and by a load: a configuration outside its legal values (93_implementation_defined.md U8).
  Safe. -/
  | illegalConfig
  /-- raised by START and by a load: no table, or a table that is not well-formed (30_encoding.md R86,
  93_implementation_defined.md U6, U8). Safe. -/
  | illFormedTable
  /-- raised by a load while the machine runs (20_memory.md R62, 93_implementation_defined.md U11). Safe. -/
  | loadWhileRunning
  /-- raised by a load after the first that changes a parameter fixed at construction (00_scope.md R6; log 12). Safe. -/
  | parameterChanged
  /-- raised by a function call whose operands are outside the function's domain (42_frame_encoder.md R153, R155;
  43_word_packer.md R172; 93_implementation_defined.md U8). Safe. -/
  | illFormedOperand
  /-- raised by a function-call turn that names a row or a command: no agent can do that (60_exceptions.md R208).
  Safe. -/
  | notAFunction
deriving DecidableEq, Repr

/-- The whole state. Field comments give the rule of 10_state.md that names the field. -/
structure State where
  /-- `SR`, R11 -/
  sr : Word
  /-- `SRCNT`, R12 -/
  srcnt : Nat
  /-- `SYM`, R13 -/
  sym : BitVec 2
  /-- `CTR`, R14 -/
  ctr : BitVec 16
  /-- `DLY`, R15 -/
  dly : BitVec 11
  /-- `PINS`, R16 -/
  pins : BitVec 2
  /-- `SIDE`, R17; 0 for ever where `SIDE_EN` = 0 (log 19) -/
  side : Bool
  /-- `PC`, R18 -/
  pc : BitVec 5
  /-- `RUN`, R23 -/
  run : Bool
  /-- `HALT_REQ`, R24 -/
  haltReq : Bool
  /-- `STALLED`, R25 -/
  stalled : Bool
  /-- `SRUN`, R26 -/
  srun : Bool
  /-- `STOP_REQ`, R27 -/
  stopReq : Bool
  /-- `IDX`, R28 -/
  idx : Nat
  /-- `CT`, R29: (address, value) pairs in canonical form (log 16) -/
  ct : List Host.Cell
  /-- `TP`, R19 -/
  tp : Bool
  /-- `DIRTY`, R20 -/
  dirty : Bool
  /-- `FRAME`, R31 -/
  frame : List Word
  /-- `FRAME_VALID`, R31 -/
  frameValid : Bool
  /-- `Q`, R32, head first -/
  q : List Word
  /-- `CFG` with `PROG`, R30, R22 -/
  cfg : Cfg
  /-- the model's own: what the last command or call returned (log 6) -/
  reply : Reply
  /-- the model's own: the turns already decided, in order (log 1) -/
  turns : List Turn
  /-- the model's own: the number of the next turn that is not decided (log 1) -/
  turnNo : Nat
deriving DecidableEq, Repr

/-- The machine right after construction (10_state.md T-R35, 70_reset_and_hazards.md R220). `SR` and `FRAME` are
"unspecified" there: DESIGN CHOICE, logs 3 and 4. `CFG` is "as constructed": DESIGN CHOICE, log 5. -/
def State.reset : State where
  sr := 0
  srcnt := 32
  sym := 0#2
  ctr := 0#16
  dly := 0#11
  pins := 0#2
  side := false
  pc := 0#5
  run := false
  haltReq := false
  stalled := false
  srun := false
  stopReq := false
  idx := 0
  ct := []
  tp := false
  dirty := true
  frame := List.replicate 48 0
  frameValid := false
  q := []
  cfg := Config.construction
  reply := .none
  turns := []
  turnNo := 0

end Sys2Proof.Machine
end

