-- ==== Sys2Proof/Machine/Ops.lean ====
section
/-! DEFINITION. The named operations over the stores, the queue and the registers (20_memory.md), and raising the one
exception (60_exceptions.md R200). -/

namespace Sys2Proof.Machine

/-- The outcome of one step of this machine. -/
abbrev Result := Host.Outcome State Fault Refusal

/-! ### The ChannelTable (10_state.md R29, 20_memory.md R53, R54) -/

/-- Entry `a`; an unlisted entry holds its reset value (10_state.md T-R35). -/
def Memory.read : List Host.Cell → Nat → Byte
  | [], _ => Config.ctReset
  | (k, v) :: m, a => if k = a then v else Memory.read m a

/-- `CT[a] <- v`. Keeps the canonical form: an entry that holds what an unlisted one reads as is not listed. -/
def Memory.write : List Host.Cell → Nat → Byte → List Host.Cell
  | [], a, v => if v = Config.ctReset then [] else [(a, v)]
  | (k, x) :: m, a, v =>
    if k < a then (k, x) :: Memory.write m a v
    else if k = a then (if v = Config.ctReset then m else (a, v) :: m)
    else (if v = Config.ctReset then (k, x) :: m else (a, v) :: (k, x) :: m)

/-- The canonical form from address `lo` on: addresses strictly rising, each at least `lo` and below 112, no entry
equal to what an unlisted one reads as. -/
def Memory.wfFrom (lo : Nat) : List Host.Cell → Bool
  | [] => true
  | (k, v) :: m => decide (lo ≤ k) && decide (k < Config.nChannels) && decide (v ≠ Config.ctReset)
      && Memory.wfFrom (k + 1) m

/-- The canonical form of the ChannelTable. -/
def Memory.wf (m : List Host.Cell) : Bool := Memory.wfFrom 0 m

/-- `CT[0..111]`, the snapshot a rebuild takes (44_streamer_commands.md R187). -/
def Memory.snapshot (m : List Host.Cell) : List Byte := (List.range Config.nChannels).map (Memory.read m)

/-! ### The InputQueue (20_memory.md R55) -/

/-- `QCOUNT` (10_state.md R32). -/
abbrev qcount (s : State) : Nat := s.q.length

/-- Whether `QueuePush` is enabled. -/
def queueHasRoom (s : State) : Bool := decide (qcount s < s.cfg.qdepth)

/-- `QueuePush(w)`: appends at the tail. -/
def queuePush (w : Word) (s : State) : State := { s with q := s.q ++ [w] }

/-! ### The one exception (60_exceptions.md R200, R201, R206) -/

/-- `raise ConfigError(code)`: the command changes no state, and its caller receives the code and the offending word.
Taking the exception saves nothing, changes no mode and transfers no control, and there is no return from it
(R206). -/
def raiseConfigError (code : ConfigErrorCode) (word : CmdWord) (s : State) : State :=
  { s with reply := .configError code word }

/-- The result of a command that did not raise: `OK` (60_exceptions.md R200). -/
def commandOk (s : State) : State := { s with reply := .ok }

/-! ### Shared state changes -/

/-- What START and the halt clear alike (44_streamer_commands.md R182, 40_timing_automaton.md R104): the queue, the
shift register's count, the symbol, the counters, `PC`, the outputs, `STALLED` and `HALT_REQ`. `SR` keeps what it
held. -/
def clearAutomaton (s : State) : State :=
  { s with
    q := [], srcnt := s.cfg.wordWidth, sym := 0#2, ctr := 0#16, dly := 0#11, pc := 0#5,
    pins := 0#2, side := false, stalled := false, haltReq := false }

/-- `Halt()` (40_timing_automaton.md R104). -/
def halt (s : State) : State := { clearAutomaton s with run := false }

/-- Whether a halt is accepted at this row boundary (40_timing_automaton.md R101, R104). -/
def haltAccepted (s : State) : Bool := s.haltReq && (decide (s.pc = 0#5) || s.stalled)

end Sys2Proof.Machine
end

