-- ==== Sys2Proof/Machine/Operands.lean ====
section
/-! DEFINITION. What a row's fields stand for: legality in its configuration (30_encoding.md R85, R86), the next row
index (40_timing_automaton.md R110), the bits a SHIFT consumes (R112) and the autopull (R102); and the number of
words of a frame (10_state.md R31). -/

namespace Sys2Proof.Machine

/-- A row this configuration gives a meaning (30_encoding.md R85). -/
def rowLegal (c : Cfg) (i : Instr) : Bool := i.isRow && i.wellFormed c

/-- Whether a word of `PROG` is a row this configuration gives a meaning. -/
def rowWordLegal (c : Cfg) (w : RowWord) : Bool :=
  match decodeRow w with
  | .ok i => rowLegal c i
  | .error _ => false

/-- Whether a word of `PROG` is a SHIFT row. -/
def isShiftWord (w : RowWord) : Bool :=
  match decodeRow w with
  | .ok (.shift _ _ _) => true
  | _ => false

/-- The well-formed tables (30_encoding.md R86): 1 to 32 rows, none reserved; and at least one SHIFT row
(93_implementation_defined.md U6; log 7). -/
def tableLegal (c : Cfg) : Bool :=
  decide (1 ≤ c.progLen) && decide (c.progLen ≤ Config.progMax) && c.prog.all (rowWordLegal c)
    && c.prog.any isShiftWord

/-- The configurations START runs with (70_reset_and_hazards.md R226). -/
def cfgLegal (c : Cfg) : Bool := c.paramsLegal && tableLegal c

/-- `seq = (PC + 1) mod PROG_LEN` (40_timing_automaton.md R110). -/
def seqPc (s : State) : BitVec 5 := BitVec.ofNat 5 ((s.pc.toNat + 1) % s.cfg.progLen)

/-- `SR[W−1 : W−n]`, zero-extended to two bits (40_timing_automaton.md R112). -/
def topBits (width n : Nat) (sr : Word) : BitVec 2 := BitVec.ofNat 2 (sr / 2 ^ (width - n) % 2 ^ n)

/-- `(SR × 2^n) mod 2^W` (40_timing_automaton.md R112). -/
def shiftOut (width n : Nat) (sr : Word) : Word := sr * 2 ^ n % 2 ^ width

/-- A level cut to the `NPINS` bits of the pin group (10_state.md R16). -/
def pinLevel (npins : Nat) (v : Nat) : BitVec 2 := BitVec.ofNat 2 (v % 2 ^ npins)

/-- What the push port's `W` bits carry of a number (30_encoding.md R89; log 13). -/
def portWord (width : Nat) (w : Word) : Word := w % 2 ^ width

/-- The autopull of 40_timing_automaton.md R102: with the shift register empty a word is popped, or there is none to
pop. Lazy, at the SHIFT that needs the word (DESIGN CHOICE of the two orders R102 allows, log 9: unsafe for the
queue's room, safe for the outputs). -/
def autopull (s : State) : Option State :=
  if s.srcnt = s.cfg.wordWidth then
    match s.q with
    | [] => none
    | w :: rest => some { s with sr := w, srcnt := 0, q := rest }
  else some s

/-- `L`, the length of the rebuilt bit sequence (10_state.md R31, 42_frame_encoder.md R158). -/
def frameLength (c : Cfg) : Nat :=
  match c.variant with
  | .twoLine => Config.frameBits
  | .differential => 2 * Config.frameBits

/-- `ceil(L / W)` (43_word_packer.md R170). -/
def wordCount (len width : Nat) : Nat := (len + width - 1) / width

/-- `NWORDS` (10_state.md R31). -/
def nwords (c : Cfg) : Nat := wordCount (frameLength c) c.wordWidth

/-- `cyc(t)`: microseconds to ticks, none where that is no whole number of at least 1 (00_scope.md R7). `t` is a whole
number of microseconds, where R7 does not say whether a fraction may stand (DESIGN CHOICE, log 18: safe). -/
def ticksOf (cycleNs t : Nat) : Option Nat :=
  if t * 1000 % cycleNs = 0 ∧ 1 ≤ t * 1000 / cycleNs then some (t * 1000 / cycleNs) else none

end Sys2Proof.Machine
end

