-- ==== Sys2Proof/Machine/Flags.lean ====
section
/-! DEFINITION. The flags: `SYM` and `BIT`, which SHIFT writes (10_state.md R13), and `DIRTY`, which the mutators set
(10_state.md R20). -/

namespace Sys2Proof.Machine

/-- `BIT`, always `SYM[0]` (10_state.md R13). -/
def bitFlag (s : State) : Bool := s.sym.getLsbD 0

/-- `SYM <- zext_2(v)`, and with it `BIT <- v[0]` (40_timing_automaton.md R112). -/
def latchSymbol (v : BitVec 2) (s : State) : State := { s with sym := v }

/-- `DIRTY <- 1`, whether or not the stored value changed (10_state.md R20, 44_streamer_commands.md R180, R181). -/
def markDirty (s : State) : State := { s with dirty := true }

end Sys2Proof.Machine
end

