-- ==== Sys2Proof/Machine/Commands.lean ====
section
/-! DEFINITION. The commands of the channel control API (44_streamer_commands.md R180 to R183) and the reserved command
words (30_encoding.md R88). -/

namespace Sys2Proof.Machine

/-- SET_CHANNEL (R180): the write and the setting of `DIRTY` are one step; an address above 111 is rejected
(60_exceptions.md R201). -/
def execSetChannel (a : BitVec 8) (v : Byte) (s : State) : Result :=
  if a.toNat < Config.nChannels then
    .next (commandOk (markDirty { s with ct := Memory.write s.ct a.toNat v }))
  else .next (raiseConfigError .badAddress (cmdWord 0b000#3 a v) s)

/-- SET_TRACK_POWER (R181). -/
def execSetTrackPower (on : Bool) (s : State) : Result :=
  .next (commandOk (markDirty { s with tp := on }))

/-- What START does when the machine is fully stopped (R182). -/
def startRun (s : State) : State :=
  { clearAutomaton s with stopReq := false, idx := 0, run := true, srun := true }

/-- START (R182): no effect while anything still runs; else the run begins, in a legal configuration
(70_reset_and_hazards.md R226) and in no other (93_implementation_defined.md U6, U8). -/
def execStart (s : State) : Result :=
  if s.srun || s.run then .next (commandOk s)
  else if s.cfg.paramsLegal = false then .refused .illegalConfig
  else if tableLegal s.cfg = false then .refused .illFormedTable
  else .next (commandOk (startRun s))

/-- STOP (R183): records the request while the Streamer runs. -/
def execStop (s : State) : Result :=
  .next (commandOk (if s.srun then { s with stopReq := true } else s))

/-- A reserved command word (30_encoding.md R88): `ConfigError(BAD_COMMAND)`. -/
def rejectReserved (w : CmdWord) (s : State) : Result := .next (raiseConfigError .badCommand w s)

/-- `cmd` = 101 (30_encoding.md R88). -/
def execCmdReserved5 (x : BitVec 16) (s : State) : Result := rejectReserved (0b101#3 ++ x) s

/-- `cmd` = 110 (30_encoding.md R88). -/
def execCmdReserved6 (x : BitVec 16) (s : State) : Result := rejectReserved (0b110#3 ++ x) s

/-- `cmd` = 111 (30_encoding.md R88). -/
def execCmdReserved7 (x : BitVec 16) (s : State) : Result := rejectReserved (0b111#3 ++ x) s

end Sys2Proof.Machine
end

