-- ==== Sys2Proof/Machine/Rows.lean ====
section
/-! DEFINITION. The automaton's rows (40_timing_automaton.md R110 to R118): each meaning is one row's first tick, from
the fetched row on (R101). -/

namespace Sys2Proof.Machine

/-- `STALLED <- 0` and the side write of R118: what every row does before its own effect (R101). -/
def beginRow (h : RowHead) (s : State) : State :=
  { s with stalled := false, side := if h.se then h.sv else s.side }

/-- `PC <- next; DLY <- row.cyc` (R101). -/
def endRow (h : RowHead) (next : BitVec 5) (s : State) : State := { s with pc := next, dly := h.cyc }

/-- One row's first tick where no word is pulled: refused where the row is reserved (30_encoding.md R85), else the
common part of R101 around the row's own effect, which answers the next row index. -/
def runRow (i : Instr) (h : RowHead) (effect : State → State × BitVec 5) (s : State) : Result :=
  if rowLegal s.cfg i then
    .next (endRow h (effect (beginRow h s)).2 (effect (beginRow h s)).1)
  else .refused .reservedRow

/-- NOP (R111). -/
def execNop (h : RowHead) (s : State) : Result :=
  runRow (.nop h) h (fun t => (t, seqPc t)) s

/-- The own effect of SHIFT `n` `d` (R112): the top bits of `SR` go to `SYM` and, with `d`, to `PINS`. -/
def shiftEffect (n : Nat) (d : Bool) (t : State) : State :=
  latchSymbol (topBits t.cfg.wordWidth n t.sr)
    { t with
      sr := shiftOut t.cfg.wordWidth n t.sr
      srcnt := t.srcnt + n
      pins := if d then pinLevel t.cfg.npins (topBits t.cfg.wordWidth n t.sr).toNat else t.pins }

/-- SHIFT (R112) with autopull and stall (R102): with nothing to pull the tick changes `STALLED` only. -/
def execShift (h : RowHead) (n : BitVec 2) (d : Bool) (s : State) : Result :=
  if rowLegal s.cfg (.shift h n d) then
    match autopull s with
    | none => .next { s with stalled := true }
    | some t => runRow (.shift h n d) h (fun u => (shiftEffect n.toNat d u, seqPc u)) t
  else .refused .reservedRow

/-- SETP (R113). -/
def execSetp (h : RowHead) (lit : BitVec 8) (s : State) : Result :=
  runRow (.setp h lit) h (fun t => ({ t with pins := pinLevel t.cfg.npins lit.toNat }, seqPc t)) s

/-- LDC (R114). -/
def execLdc (h : RowHead) (imm : BitVec 16) (s : State) : Result :=
  runRow (.ldc h imm) h (fun t => ({ t with ctr := imm }, seqPc t)) s

/-- JMP (R115). -/
def execJmp (h : RowHead) (target : BitVec 5) (s : State) : Result :=
  runRow (.jmp h target) h (fun t => (t, target)) s

/-- JBIT (R116): `BIT` is read, not consumed. -/
def execJbit (h : RowHead) (b : Bool) (target : BitVec 5) (s : State) : Result :=
  runRow (.jbit h b target) h (fun t => (t, if bitFlag t = b then target else seqPc t)) s

/-- JCTR (R117): at zero the counter is not decremented. -/
def execJctr (h : RowHead) (target : BitVec 5) (s : State) : Result :=
  runRow (.jctr h target) h
    (fun t => if t.ctr = 0#16 then (t, seqPc t) else ({ t with ctr := t.ctr - 1#16 }, target)) s

/-- `op` = 111: a reserved row has no meaning (30_encoding.md R85). -/
def execRowReserved (_ : BitVec 29) (_ : State) : Result := .refused .reservedRow

end Sys2Proof.Machine
end

