-- ==== Sys2Proof/Machine/Encoder.lean ====
section
/-! DEFINITION. The Frame Encoder (42_frame_encoder.md): pure functions from channel values and the track-power flag to
bit sequences in the formats of 30_encoding.md R71 to R75, and the meanings that call them. -/

namespace Sys2Proof.Machine

/-- `val(s)`: a bit sequence as an unsigned number, the first bit most significant (00_scope.md R8). -/
def bitsVal (b : Bits) : Nat := b.foldl (fun acc x => 2 * acc + x.toNat) 0

/-- `encodeByte(v)` (R150): a literal 1 after every two bits, most significant first. -/
def encodeByte (v : Byte) : Bits :=
  [v.getLsbD 7, v.getLsbD 6, true, v.getLsbD 5, v.getLsbD 4, true,
   v.getLsbD 3, v.getLsbD 2, true, v.getLsbD 1, v.getLsbD 0, true]

/-- `decodeByte(s)` (R151): the eight data positions; position `p` of the operand is bit `11 - p`. The stuffing
positions are ignored. -/
def decodeByte (x : BitVec 12) : Byte :=
  BitVec.ofNat 8 (bitsVal
    [x.getLsbD 11, x.getLsbD 10, x.getLsbD 8, x.getLsbD 7, x.getLsbD 5, x.getLsbD 4, x.getLsbD 2, x.getLsbD 1])

/-- The header's address field: `NOT_4(blockIndex)` when `ADDR_INVERT` (30_encoding.md R77). -/
def addressField (invert : Bool) (b : BitVec 4) : BitVec 4 := if invert then ~~~b else b

/-- `encodeHeader(b, tp)` (R152). -/
def encodeHeader (invert : Bool) (b : BitVec 4) (tp : Bool) : Bits :=
  let a := addressField invert b
  [false, false, false, true, tp, true, a.getLsbD 3, a.getLsbD 2, true, a.getLsbD 1, a.getLsbD 0, true]

/-- The block index a header carries: positions 6, 7, 9, 10, complemented when `ADDR_INVERT` (30_encoding.md R77). -/
def headerIndex (invert : Bool) (s : Bits) : BitVec 4 :=
  addressField invert (BitVec.ofNat 4 (bitsVal [s.getD 6 false, s.getD 7 false, s.getD 9 false, s.getD 10 false]))

/-- `encodeBlock(b, ct, tp)` (R153): the header, then channels `b + 16k` for slots `k` = 0 to 6. -/
def encodeBlock (invert : Bool) (b : BitVec 4) (ct : List Byte) (tp : Bool) : Bits :=
  encodeHeader invert b tp
    ++ (List.range Config.slots).flatMap (fun k => encodeByte (ct.getD (b.toNat + 16 * k) Config.ctReset))

/-- `encodeFrame(ct, tp)` (R155): blocks 0 to 15 in increasing order. -/
def encodeFrame (invert : Bool) (ct : List Byte) (tp : Bool) : Bits :=
  (List.range Config.nBlocks).flatMap (fun b => encodeBlock invert (BitVec.ofNat 4 b) ct tp)

/-- The 2-bit symbol of a polarity, first bit first (30_encoding.md R75). -/
def polaritySymbol (pol : Bool) : Bits :=
  let s := if pol then Config.symPlus else Config.symMinus
  [s.getLsbD 1, s.getLsbD 0]

/-- `polarityMap(bits)` from the polarity `pol` (R156): a 1 toggles first, then the symbol of the new polarity is
emitted. `pol` is the PolarityState of 10_state.md R21, a local of one mapping. -/
def mapPolarity : Bool → Bits → Bits
  | _, [] => []
  | pol, b :: rest => polaritySymbol (pol ^^ b) ++ mapPolarity (pol ^^ b) rest

/-- The polarity after the last symbol, which a mapping discards (R156, R157). -/
def finalPolarity : Bool → Bits → Bool
  | pol, [] => pol
  | pol, b :: rest => finalPolarity (pol ^^ b) rest

/-- `frameBits(ct, tp)` (R158). -/
def frameBits (c : Cfg) (ct : List Byte) (tp : Bool) : Bits :=
  match c.variant with
  | .twoLine => encodeFrame c.addrInvert ct tp
  | .differential => mapPolarity c.polInit (encodeFrame c.addrInvert ct tp)

/-- A function's result goes to its caller and changes nothing else: none of these functions has state (42_frame_encoder.md). -/
def replyWith (r : Reply) (s : State) : State := { s with reply := r }

/-- ENCODE_BYTE (R150). -/
def execEncodeByte (v : Byte) (s : State) : Result := .next (replyWith (.bits (encodeByte v)) s)

/-- DECODE_BYTE (R151). -/
def execDecodeByte (x : BitVec 12) (s : State) : Result := .next (replyWith (.byte (decodeByte x)) s)

/-- ENCODE_HEADER (R152). -/
def execEncodeHeader (b : BitVec 4) (tp : Bool) (s : State) : Result :=
  .next (replyWith (.bits (encodeHeader s.cfg.addrInvert b tp)) s)

/-- ENCODE_BLOCK (R153): `ct` is a snapshot of the ChannelTable, 112 values. -/
def execEncodeBlock (b : BitVec 4) (ct : List Byte) (tp : Bool) (s : State) : Result :=
  if (Instr.encodeBlock b ct tp).wellFormed s.cfg then
    .next (replyWith (.bits (encodeBlock s.cfg.addrInvert b ct tp)) s)
  else .refused .illFormedOperand

/-- ENCODE_FRAME (R155). -/
def execEncodeFrame (ct : List Byte) (tp : Bool) (s : State) : Result :=
  if (Instr.encodeFrame ct tp).wellFormed s.cfg then
    .next (replyWith (.bits (encodeFrame s.cfg.addrInvert ct tp)) s)
  else .refused .illFormedOperand

/-- POLARITY_MAP (R156): every call starts at `POL_INIT`. -/
def execPolarityMap (bits : Bits) (s : State) : Result :=
  .next (replyWith (.bits (mapPolarity s.cfg.polInit bits)) s)

end Sys2Proof.Machine
end

