-- ==== Sys2Proof/Machine/Packer.lean ====
section
/-! DEFINITION. The Word Packer (43_word_packer.md) and the frame image it makes (R173). -/

namespace Sys2Proof.Machine

/-- One chunk as a word: its first bit most significant, an incomplete chunk zero-padded in the low-order bits
(R170). -/
def packChunk (width : Nat) (chunk : Bits) : Nat := bitsVal chunk * 2 ^ (width - chunk.length)

/-- The words of `n` contiguous chunks of `width` bits (R170). -/
def packChunks (width : Nat) : Nat → Bits → List Nat
  | 0, _ => []
  | n + 1, bits => packChunk width (bits.take width) :: packChunks width n (bits.drop width)

/-- `pack(bits, W, u)` (R170). `u` does not change the result; it constrains the operands (R172). -/
def packBits (bits : Bits) (width : Nat) : List Nat := packChunks width (wordCount bits.length width) bits

/-- The bits of one word, most significant first (30_encoding.md R76). -/
def wordBits (width w : Nat) : Bits := (List.range width).map (fun i => w.testBit (width - 1 - i))

/-- `unpack(words, W)` (R171). -/
def unpackWords (words : List Nat) (width : Nat) : Bits := words.flatMap (wordBits width)

/-- The words a rebuild puts into `FRAME` (R173). -/
def frameImage (c : Cfg) (ct : List Byte) (tp : Bool) : List Word :=
  packBits (frameBits c ct tp) c.wordWidth

/-- PACK (R170); operands that would cut a symbol are refused (R172). -/
def execPack (bits : Bits) (wordWidth bitsPerSymbolUnit : Nat) (s : State) : Result :=
  if (Instr.pack bits wordWidth bitsPerSymbolUnit).wellFormed s.cfg then
    .next (replyWith (.words (packBits bits wordWidth)) s)
  else .refused .illFormedOperand

/-- UNPACK (R171) of `W`-bit words. -/
def execUnpack (words : List Nat) (wordWidth : Nat) (s : State) : Result :=
  if (Instr.unpack words wordWidth).wellFormed s.cfg then
    .next (replyWith (.bits (unpackWords words wordWidth)) s)
  else .refused .illFormedOperand

end Sys2Proof.Machine
end

