-- ==== Sys2Proof/Machine/Streamer.lean ====
section
/-! DEFINITION. The Streamer's own operations (44_streamer_commands.md R184, R187, R189) and when each is enabled
(R186). -/

namespace Sys2Proof.Machine

/-- Whether the rebuild step is enabled (R187). -/
def rebuildEnabled (s : State) : Bool := s.srun && !s.stopReq && decide (s.idx = 0) && s.dirty

/-- Whether the push step is enabled (R188). -/
def pushEnabled (s : State) : Bool :=
  s.srun && s.frameValid && queueHasRoom s
    && (if s.stopReq then decide (s.idx ≠ 0) else !(decide (s.idx = 0) && s.dirty))

/-- `Rebuild()` (R187): snapshot and clear, encode, pack and replace in one step. -/
def rebuildFrame (s : State) : State :=
  { s with
    dirty := false
    frame := frameImage s.cfg (Memory.snapshot s.ct) s.tp
    frameValid := true }

/-- REBUILD (R187). Where the step is not enabled the Streamer does not take it: nothing changes (log 8). -/
def execRebuild (s : State) : Result :=
  if rebuildEnabled s then .next (rebuildFrame s) else .next s

/-- PUSH (R184): the whole word is appended, or, with the queue full, the caller waits and nothing changes
(20_memory.md R55). -/
def execPush (w : Word) (s : State) : Result :=
  if queueHasRoom s then .next (queuePush (portWord s.cfg.wordWidth w) s) else .next s

/-- `IDX <- (IDX + 1) mod NWORDS` (R188). -/
def advanceIdx (s : State) : State := { s with idx := (s.idx + 1) % nwords s.cfg }

/-- `StreamerStop()` (R189). -/
def streamerStop (s : State) : State := { s with srun := false, stopReq := false, haltReq := true }

end Sys2Proof.Machine
end

