-- ==== Sys2Proof/Machine/Dispatch.lean ====
section
/-! DEFINITION. What each instruction means: one direct call per constructor. -/

namespace Sys2Proof.Machine

def exec (i : Instr) (s : State) : Host.Outcome State Fault Refusal :=
  match i with
  -- automaton rows, 40_timing_automaton.md
  | .nop h => Sys2Proof.Machine.execNop h s
  | .shift h n d => Sys2Proof.Machine.execShift h n d s
  | .setp h lit => Sys2Proof.Machine.execSetp h lit s
  | .ldc h imm => Sys2Proof.Machine.execLdc h imm s
  | .jmp h target => Sys2Proof.Machine.execJmp h target s
  | .jbit h b target => Sys2Proof.Machine.execJbit h b target s
  | .jctr h target => Sys2Proof.Machine.execJctr h target s
  | .rowReserved x => Sys2Proof.Machine.execRowReserved x s
  -- commands, 44_streamer_commands.md
  | .setChannel a v => Sys2Proof.Machine.execSetChannel a v s
  | .setTrackPower on => Sys2Proof.Machine.execSetTrackPower on s
  | .start => Sys2Proof.Machine.execStart s
  | .stop => Sys2Proof.Machine.execStop s
  | .rebuild => Sys2Proof.Machine.execRebuild s
  | .cmdReserved5 x => Sys2Proof.Machine.execCmdReserved5 x s
  | .cmdReserved6 x => Sys2Proof.Machine.execCmdReserved6 x s
  | .cmdReserved7 x => Sys2Proof.Machine.execCmdReserved7 x s
  | .push w => Sys2Proof.Machine.execPush w s
  -- pure functions, 42_frame_encoder.md and 43_word_packer.md
  | .encodeByte v => Sys2Proof.Machine.execEncodeByte v s
  | .decodeByte x => Sys2Proof.Machine.execDecodeByte x s
  | .encodeHeader b tp => Sys2Proof.Machine.execEncodeHeader b tp s
  | .encodeBlock b ct tp => Sys2Proof.Machine.execEncodeBlock b ct tp s
  | .encodeFrame ct tp => Sys2Proof.Machine.execEncodeFrame ct tp s
  | .polarityMap bits => Sys2Proof.Machine.execPolarityMap bits s
  | .pack bits wordWidth bitsPerSymbolUnit => Sys2Proof.Machine.execPack bits wordWidth bitsPerSymbolUnit s
  | .unpack words wordWidth => Sys2Proof.Machine.execUnpack words wordWidth s

end Sys2Proof.Machine
end

