-- ==== Sys2Proof/Machine/Agents.lean ====
section
/-! DEFINITION. The steps of the agents (10_state.md R10): the automaton's tick (40_timing_automaton.md R101), the
Streamer's step (44_streamer_commands.md R186 to R189), a presented command (30_encoding.md R87, R88), a function call
and a load (00_scope.md R5). -/

namespace Sys2Proof.Machine

/-- The row at `PC`, fetched and run (40_timing_automaton.md R101, 20_memory.md R62). -/
def runFetchedRow (s : State) : Result :=
  match s.cfg.prog[s.pc.toNat]? with
  | none => .fault .progIndex
  | some w =>
    match decodeRow w with
    | .ok i => exec i s
    | .error _ => .refused .reservedRow

/-- `AutomatonTick()` (40_timing_automaton.md R101). -/
def automatonTick (s : State) : Result :=
  if s.run = false then .next s
  else if s.dly ≠ 0#11 then .next { s with dly := s.dly - 1#11 }
  else if haltAccepted s then .next (halt s)
  else runFetchedRow s

/-- The Streamer's push step (44_streamer_commands.md R188), where it is enabled. -/
def streamerPush (s : State) : Result :=
  match s.frame[s.idx]? with
  | none => .fault .frameIndex
  | some w =>
    match exec (.push w) s with
    | .next t => .next (advanceIdx t)
    | .fault r => .fault r
    | .refused r => .refused r

/-- The Streamer takes an enabled step, or waits where none is enabled (44_streamer_commands.md T-R186). A requested
stop comes before a rebuild, a rebuild before a push (60_exceptions.md R205); with a stop requested inside a pass the
Streamer may push on instead (R189), which `finish` says. -/
def streamerStep (finish : Bool) (s : State) : Result :=
  if s.srun = false then .next s
  else if s.stopReq then
    (if finish && pushEnabled s then streamerPush s else .next (streamerStop s))
  else if rebuildEnabled s then exec .rebuild s
  else if pushEnabled s then streamerPush s
  else .next s

/-- The application presents a command word: decoded before its operands are looked at (60_exceptions.md R205);
rejected where it is no command or is REBUILD, which is the Streamer's (30_encoding.md R88, 90_conflicts.md C11). -/
def presentCommand (w : CmdWord) (s : State) : Result :=
  match decodeCommand w with
  | .error _ => .next (raiseConfigError .badCommand w s)
  | .ok .rebuild => .next (raiseConfigError .badCommand w s)
  | .ok i => exec i s

/-- A caller runs a pure function; rows and commands cannot be called (60_exceptions.md R208; log 14). -/
def callFunction (i : Instr) (s : State) : Result :=
  if i.isFunction then exec i s else .refused .notAFunction

/-- Whether the transmitter has been given its configuration: a table has been loaded, and from then on the parameters
of 00_scope.md R6 are fixed (70_reset_and_hazards.md R226; DESIGN CHOICE of when construction is complete, log 12). -/
def constructed (s : State) : Bool := decide (s.cfg.prog ≠ [])

/-- The state with a configuration placed while stopped: the shift register stays empty at the new `W`, and a frame
nothing has filled takes the new `NWORDS` (log 12). -/
def placeCfg (c : Cfg) (s : State) : State :=
  { s with
    cfg := c
    srcnt := c.wordWidth
    frame := if s.frameValid then s.frame else List.replicate (nwords c) 0 }

/-- The excluded loader places `CFG` and `PROG` unchanged (00_scope.md R5, 70_reset_and_hazards.md R226): only while
stopped (20_memory.md R62, 60_exceptions.md R208), only what is legal (60_exceptions.md R203), and after the first load,
which completes the construction, no other parameters (00_scope.md R6; log 12). -/
def loadCfg (c : Cfg) (s : State) : Result :=
  if s.run || s.srun then .refused .loadWhileRunning
  else if c.paramsLegal = false then .refused .illegalConfig
  else if tableLegal c = false then .refused .illFormedTable
  else if constructed s && !(Cfg.sameParams s.cfg c) then .refused .parameterChanged
  else .next (placeCfg c s)

/-- One turn of one agent. -/
def runTurn (t : Turn) (s : State) : Result :=
  match t with
  | .tick => automatonTick s
  | .streamer finish => streamerStep finish s
  | .command w => presentCommand w s
  | .api c => presentCommand (apiWord c) s
  | .call i => callFunction i s
  | .load c => loadCfg c s

/-- Whose turn is next: the first of the turns already decided, else the free value of the schedule (20_memory.md R56;
log 1). -/
def nextTurn (s : State) : Turn :=
  match s.turns with
  | [] => Config.freeTurn s.turnNo
  | t :: _ => t

/-- The state once the next turn has been taken from the schedule. -/
def takeTurn (s : State) : State :=
  match s.turns with
  | [] => { s with turnNo := s.turnNo + 1 }
  | _ :: rest => { s with turns := rest }

/-- One step of the machine: one turn of one agent (20_memory.md R56). -/
def stepOnce (s : State) : Result := runTurn (nextTurn s) (takeTurn s)

end Sys2Proof.Machine
end

