-- ==== Sys2Proof/Machine/Waveforms.lean ====
section
/-! DEFINITION. The assembly form of rows (30_encoding.md R91) and the instruction tables of the protocols, written in it
(41_waveform_generators.md R131 to R138). -/

namespace Sys2Proof.Machine

/-- The mnemonics and operands of 30_encoding.md R91; `wait` is its one pseudo-instruction. -/
inductive AsmOp where
  | nop
  | wait
  | shift (n : Nat) (pins : Bool)
  | setp (lit : Nat)
  | ldc (imm : Nat)
  | jmp (target : Nat)
  | jbit (b : Bool) (target : Nat)
  | jctr (target : Nat)
deriving DecidableEq, Repr

/-- One row of assembly: `side <0|1>` optional, `x<count>` the full tick count, default 1 (30_encoding.md R91). -/
structure AsmRow where
  op : AsmOp
  side : Option Bool := none
  cycles : Nat := 1
deriving DecidableEq, Repr

/-- The row a line of assembly stands for; none where an operand does not fit its field (30_encoding.md T-R80, T-R83,
R82). -/
def assembleRow (r : AsmRow) : Option Instr :=
  if 1 ≤ r.cycles ∧ r.cycles ≤ 2048 then
    let h : RowHead := ⟨r.side.isSome, r.side.getD false, BitVec.ofNat 11 (r.cycles - 1)⟩
    match r.op with
    | .nop => some (.nop h)
    | .wait => some (.nop h)
    | .shift n pins => if n < 4 then some (.shift h (BitVec.ofNat 2 n) pins) else none
    | .setp lit => if lit < 256 then some (.setp h (BitVec.ofNat 8 lit)) else none
    | .ldc imm => if imm < 65536 then some (.ldc h (BitVec.ofNat 16 imm)) else none
    | .jmp t => if t < 32 then some (.jmp h (BitVec.ofNat 5 t)) else none
    | .jbit b t => if t < 32 then some (.jbit h b (BitVec.ofNat 5 t)) else none
    | .jctr t => if t < 32 then some (.jctr h (BitVec.ofNat 5 t)) else none
  else none

/-- The word of a row. -/
def rowWordOf (i : Instr) : Option RowWord :=
  match encode i with
  | some (.row w) => some w
  | _ => none

/-- A table from its lines of assembly. -/
def assembleTable : List AsmRow → Option (List RowWord)
  | [] => some []
  | r :: rest =>
    match assembleRow r with
    | none => none
    | some i =>
      match rowWordOf i, assembleTable rest with
      | some w, some ws => some (w :: ws)
      | _, _ => none

/-- The text of an operation (30_encoding.md R91). -/
def asmOpText : AsmOp → String
  | .nop => "NOP"
  | .wait => "WAIT"
  | .shift n pins => "SHIFT " ++ toString n ++ (if pins then " pins" else "")
  | .setp lit => "SETP " ++ toString lit
  | .ldc imm => "LDC " ++ toString imm
  | .jmp t => "JMP " ++ toString t
  | .jbit b t => "JBIT " ++ toString b.toNat ++ " " ++ toString t
  | .jctr t => "JCTR " ++ toString t

/-- A row's line, `<index>: <MNEMONIC> <operands> [side <0|1>] [x<count>]` (30_encoding.md R91). -/
def asmRowText (index : Nat) (r : AsmRow) : String :=
  toString index ++ ": " ++ asmOpText r.op
    ++ (match r.side with
        | none => ""
        | some v => " side " ++ toString v.toNat)
    ++ (if r.cycles = 1 then "" else " x" ++ toString r.cycles)

/-- Table `SX` (41_waveform_generators.md R131), `n` = `SYMBOL_BITS`. -/
def sxTable (n cycleNs : Nat) : Option (List RowWord) :=
  match ticksOf cycleNs Config.tSxLow, ticksOf cycleNs Config.tSxHigh with
  | some low, some high =>
    assembleTable
      [⟨.shift n true, some false, low⟩,
       ⟨.nop, some true, high⟩]
  | _, _ => none

/-- Table `PULSE(H0, L0, H1, L1)` (41_waveform_generators.md R134), durations in ticks. -/
def pulseTable (h0 l0 h1 l1 : Nat) : Option (List RowWord) :=
  if 1 ≤ h0 ∧ 1 ≤ h1 ∧ 4 ≤ l0 ∧ 3 ≤ l1 then
    assembleTable
      [⟨.shift 1 false, none, 1⟩,
       ⟨.jbit true 5, none, 1⟩,
       ⟨.setp 1, none, h0⟩,
       ⟨.setp 0, none, l0 - 3⟩,
       ⟨.jmp 0, none, 1⟩,
       ⟨.setp 1, none, h1⟩,
       ⟨.setp 0, none, l1 - 2⟩]
  else none

/-- Table `DCC` (41_waveform_generators.md R135): two equal halves per bit. -/
def dccTable (cycleNs : Nat) : Option (List RowWord) :=
  match ticksOf cycleNs Config.tDccOneHalf, ticksOf cycleNs Config.tDccZeroHalf with
  | some one, some nul => pulseTable nul nul one one
  | _, _ => none

/-- Table `DCC_RC` (41_waveform_generators.md R136) with `N` = `CUTOUT_AFTER_BITS`, an OPEN parameter
(93_implementation_defined.md U9). -/
def dccRcTable (cutoutAfterBits cycleNs : Nat) : Option (List RowWord) :=
  if 1 ≤ cutoutAfterBits ∧ cutoutAfterBits ≤ 65536 then
    match ticksOf cycleNs Config.tCutout, ticksOf cycleNs Config.tDccOneHalf,
        ticksOf cycleNs Config.tDccZeroHalf with
    | some cutout, some one, some nul =>
      assembleTable
        [⟨.jctr 3, none, 1⟩,
         ⟨.setp 0, some true, cutout⟩,
         ⟨.ldc (cutoutAfterBits - 1), some false, 1⟩,
         ⟨.shift 1 false, none, 1⟩,
         ⟨.jbit false 8, none, 1⟩,
         ⟨.setp 1, none, one⟩,
         ⟨.setp 0, none, one - 4⟩,
         ⟨.jmp 0, none, 1⟩,
         ⟨.setp 1, none, nul⟩,
         ⟨.setp 0, none, nul - 3⟩]
    | _, _, _ => none
  else none

/-- Table `MM` (41_waveform_generators.md R137) from the OPEN durations `T_MM_SHORT` and `T_MM_LONG`, in whole
microseconds (DESIGN CHOICE, log 18: safe). -/
def mmTable (short long cycleNs : Nat) : Option (List RowWord) :=
  match ticksOf cycleNs short, ticksOf cycleNs long with
  | some s, some l => if 4 ≤ s then pulseTable s l l s else none
  | _, _ => none

/-- Table `MFX` (41_waveform_generators.md R138) from the OPEN duration `T_MFX_HALF`, in whole microseconds (DESIGN
CHOICE, log 18: safe). -/
def mfxTable (n half cycleNs : Nat) : Option (List RowWord) :=
  match ticksOf cycleNs half with
  | some k => assembleTable [⟨.shift n true, none, k⟩]
  | none => none

/-- A configuration of one variant with a table (70_reset_and_hazards.md R226): the symbol width and the pin group
follow the variant (00_scope.md R6). -/
def cfgFor (c : Cfg) (variant : Variant) (sideEn : Bool) (prog : List RowWord) : Cfg :=
  let n := match variant with
    | .twoLine => 1
    | .differential => 2
  { c with variant := variant, symbolBits := n, npins := n, sideEn := sideEn, prog := prog }

end Sys2Proof.Machine
end

