-- ==== Sys2Proof/Machine/Fetch.lean ====
section
/-! DEFINITION. Where each port takes its next instruction from: what `State.withFetchWord` sets so that the very next
step runs one given instruction (log 2, log 10). -/

namespace Sys2Proof.Machine

/-- The variant whose symbol and pin widths a row word needs: two bits for a SHIFT of 2 and for a SETP literal above 1
(30_encoding.md R85). -/
def variantForRow (w : RowWord) : Variant :=
  match decodeRow w with
  | .ok (.shift _ n _) => if n = 2#2 then .differential else .twoLine
  | .ok (.setp _ lit) => if 1 < lit.toNat then .differential else .twoLine
  | _ => .twoLine

/-- The row stands at `PROG[PC]`, at a row boundary of a running automaton, and the automaton has the next turn. Every
row of a table of 32 is the same word, so that any branch target is a row of the table (30_encoding.md R85). -/
def fetchRowState (s : State) (w : RowWord) : State :=
  { s with
    cfg := cfgFor s.cfg (variantForRow w) true (List.replicate Config.progMax w)
    run := true, haltReq := false, dly := 0#11
    turns := .tick :: s.turns }

/-- The word stands at `FRAME[IDX]` and the Streamer's next step pushes it (44_streamer_commands.md R188): the push port
has no other caller (R184). -/
def fetchPushState (s : State) (w : Word) : State :=
  { s with
    frame := List.replicate (nwords s.cfg) w, idx := 0, frameValid := true, dirty := false
    srun := true, stopReq := false
    turns := .streamer false :: s.turns }

/-- The application presents the word next. START runs only with a loaded table (70_reset_and_hazards.md R226): where
none is legal, the Selectrix table of 41_waveform_generators.md R131 is loaded. REBUILD is the Streamer's own step
(90_conflicts.md C11): its enabling conditions hold and the Streamer has the next turn. -/
def fetchCommandState (s : State) (w : CmdWord) : State :=
  match decodeCommand w with
  | .ok .start =>
    { s with
      cfg := if cfgLegal s.cfg then s.cfg
        else cfgFor Config.construction .twoLine true ((sxTable 1 1000).getD [])
      turns := .command w :: s.turns }
  | .ok .rebuild =>
    { s with srun := true, stopReq := false, idx := 0, dirty := true, turns := .streamer false :: s.turns }
  | _ => { s with turns := .command w :: s.turns }

/-- The state with a table word placed where the next step takes it, read as `decodeTableWord` reads it. -/
def fetchState (s : State) (nbits w : Nat) : State :=
  if nbits = 32 then
    match decodeRow (BitVec.ofNat 32 w) with
    | .ok _ => fetchRowState s (BitVec.ofNat 32 w)
    | .error _ => fetchPushState s (w % 2 ^ 32)
  else fetchCommandState s (BitVec.ofNat 19 w)

end Sys2Proof.Machine
end

