-- ==== Sys2Proof/Machine/Step.lean ====
section
/-! DEFINITION. The step function, and the placing of one instruction where the next step takes it. -/

namespace Sys2Proof.Machine

/-- One step: one atomic turn of one agent (20_memory.md R56). -/
def step (s : State) : Host.Outcome State Fault Refusal := stepOnce s

/-- `s` with the instruction of a table word placed where `step` takes its next instruction (log 2, log 10). -/
def State.withFetchWord (s : State) (nbits w : Nat) : State := fetchState s nbits w

end Sys2Proof.Machine
end

