-- ==== Sys2Proof/Machine/Observe.lean ====
section
/-! DEFINITION. The observation of the automaton: its output trace (40_timing_automaton.md R103). -/

namespace Sys2Proof.Machine

/-- `OUT = (PINS, SIDE)` (40_timing_automaton.md R103). -/
def outputs (s : State) : BitVec 2 × Bool := (s.pins, s.side)

/-- `n` ticks of the automaton with no other agent between them. -/
def runTicks : Nat → State → Result
  | 0, s => .next s
  | n + 1, s =>
    match automatonTick s with
    | .next t => runTicks n t
    | .fault r => .fault r
    | .refused r => .refused r

/-- The outputs after each of `n` ticks with no other agent between them; shorter where a tick stops. -/
def outTrace : Nat → State → List (BitVec 2 × Bool)
  | 0, _ => []
  | n + 1, s =>
    match automatonTick s with
    | .next t => outputs t :: outTrace n t
    | .fault _ => []
    | .refused _ => []

/-- The trace after the step from `s` to `t`, whoever's step it is, from the trace before it: emptied by the START that
sets `RUN`, from which ticks are counted; longer by the outputs after the step where it is a tick of a running automaton;
and as it was at every other step. The turns of a stopped machine add nothing, so a trace ends with the halt tick, and is
kept, until the next START: DESIGN CHOICE, log 20 (60_exceptions.md R212 says a stopped machine has no ticks,
95_test_vectors.md P3 writes its (0, 0) on for ever). -/
def observe (outs : List (BitVec 2 × Bool)) (s t : State) : List (BitVec 2 × Bool) :=
  if s.run = false ∧ t.run = true then []
  else if nextTurn s = .tick ∧ s.run = true then outs ++ [outputs t]
  else outs

/-- The output trace after `n` steps of all agents, in the order the schedule gives, from the trace before them
(40_timing_automaton.md R103); it ends where a step stops. -/
def runTrace : Nat → List (BitVec 2 × Bool) → State → List (BitVec 2 × Bool)
  | 0, outs, _ => outs
  | n + 1, outs, s =>
    match step s with
    | .next t => runTrace n (observe outs s t) t
    | .fault _ => outs
    | .refused _ => outs

/-- How many ticks of a running automaton are among `n` steps of all agents. -/
def tickCount : Nat → State → Nat
  | 0, _ => 0
  | n + 1, s =>
    match step s with
    | .next t => (if nextTurn s = .tick ∧ s.run = true then 1 else 0) + tickCount n t
    | .fault _ => 0
    | .refused _ => 0

/-- `OUT(k)`: the outputs after tick `k` since the last START of a run of `n` steps from `s`
(40_timing_automaton.md R103); none where that tick has not come, or comes after the halt (log 20). -/
def outAt (n : Nat) (s : State) (k : Nat) : Option (BitVec 2 × Bool) := (runTrace n [] s)[k]?

/-- The level on the wire `ns` nanoseconds into a trace, each element held for `CYCLE_NS`
(40_timing_automaton.md R103); none past the trace's last element, the halt's among them (log 20). -/
def wireAt (c : Cfg) (outs : List (BitVec 2 × Bool)) (ns : Nat) : Option (BitVec 2 × Bool) := outs[ns / c.cycleNs]?

end Sys2Proof.Machine
end

