-- ==== Sys2Proof/Safety.lean ====
section
/-! DEFINITION. What counts as a sound state of the core, in the terms the statements use: the invariants of
44_streamer_commands.md R190 and the ranges of 10_state.md. -/

namespace Sys2Proof

open Sys2Proof.Machine

/-- The state invariant. `I1` to `I6` are those of 44_streamer_commands.md R190; the rest are the ranges of
10_state.md and what holds while stopped (60_exceptions.md R212). -/
structure Inv (s : State) : Prop where
  /-- the ChannelTable is in canonical form, addresses 0 to 111 (10_state.md R29) -/
  tableForm : Memory.wf s.ct = true
  /-- I1 -/
  noFrameIsDirty : s.frameValid = false → s.dirty = true
  /-- I2 -/
  frameCurrent : s.dirty = false → s.frame = frameImage s.cfg (Memory.snapshot s.ct) s.tp
  /-- `FRAME` has `NWORDS` words (10_state.md R31) -/
  frameSize : s.frame.length = nwords s.cfg
  /-- I3 -/
  queueBound : qcount s ≤ s.cfg.qdepth
  /-- I4, first half -/
  streamerNeedsRun : s.srun = true → s.run = true
  /-- I4, second half -/
  haltAfterStreamer : s.haltReq = true → s.srun = false ∧ s.run = true
  /-- I5 -/
  stopNeedsStreamer : s.stopReq = true → s.srun = true
  /-- I6 and what the halt and construction leave (40_timing_automaton.md R104, 10_state.md T-R35) -/
  stoppedIdle : s.run = false →
    s.pins = 0#2 ∧ s.side = false ∧ s.q = [] ∧ s.stalled = false ∧ s.pc = 0#5 ∧ s.dly = 0#11
      ∧ s.srcnt = s.cfg.wordWidth ∧ s.ctr = 0#16 ∧ s.sym = 0#2
  /-- a running machine has a legal configuration and table (70_reset_and_hazards.md R226) -/
  runsLegal : s.run = true → cfgLegal s.cfg = true
  /-- 10_state.md R18 -/
  pcInTable : s.run = true → s.pc.toNat < s.cfg.progLen
  /-- 10_state.md R12, 40_timing_automaton.md R112 -/
  shiftCount : s.run = true → s.srcnt ≤ s.cfg.wordWidth ∧ s.srcnt % s.cfg.symbolBits = 0
  /-- 10_state.md R11: the bits not yet consumed are `W` bits -/
  shiftBits : s.srcnt ≠ s.cfg.wordWidth → s.sr < 2 ^ s.cfg.wordWidth
  /-- a frame was built from a configuration that a load placed (70_reset_and_hazards.md R226) -/
  frameNeedsTable : s.frameValid = true → s.cfg.prog ≠ []
  /-- 10_state.md R28 -/
  idxInFrame : s.srun = true → s.idx < nwords s.cfg
  /-- 10_state.md R16 -/
  pinsInGroup : s.run = true → s.pins.toNat < 2 ^ s.cfg.npins
  /-- 10_state.md R32: queue words are `W`-bit words -/
  queueWords : ∀ w ∈ s.q, w < 2 ^ s.cfg.wordWidth
  /-- 10_state.md R25: the automaton waits at a row boundary with `SR` empty -/
  stallPlace : s.stalled = true → s.run = true ∧ s.dly = 0#11 ∧ s.srcnt = s.cfg.wordWidth

/-- The steps at which the machine may still stop: START and a load may be refused (93_implementation_defined.md U6,
U8, U11), and a call may name no function or no operand of one. Every other turn is one of these. -/
def Turn.unconditional : Turn → Bool
  | .tick => true
  | .streamer _ => true
  | .command w => decide (decodeCommand w ≠ .ok .start)
  | .api c => decide (c ≠ .start)
  | .call _ => false
  | .load _ => false

end Sys2Proof
end

