-- ==== Sys2Proof/Certificates/Slice0/Obligations.lean ====
section
/-! DEFINITION. The statements for the provers. A docstring cites the rule a statement formalises, or says that it rests
on a choice of the model and names its log entry. Where a next state is written out as a record update, every field the
update does not name is unchanged: that is the statement's frame. -/

open Sys2Proof Sys2Proof.Machine

/-! ## Encodings (30_encoding.md) -/

/-- Row words of 95_test_vectors.md 2.6 and command words of 2.8 decode to what that table says they are. -/
def Obligations.SpecWordsDecode : Prop :=
  decodeRow 0x18270000#32 = .ok (.nop ⟨true, true, 39#11⟩)
    ∧ decodeRow 0x30090102#32 = .ok (.shift ⟨true, false, 9#11⟩ 2#2 true)
    ∧ decodeRow 0x59C10000#32 = .ok (.setp ⟨true, true, 449#11⟩ 0#8)
    ∧ decodeRow 0x67FFFFFF#32 = .ok (.ldc ⟨false, false, 2047#11⟩ 0xFFFF#16)
    ∧ decodeRow 0xA0000105#32 = .ok (.jbit ⟨false, false, 0#11⟩ true 5#5)
    ∧ decodeRow 0x00000001#32 = .error .rowMustBeZero
    ∧ decodeCommand 0x06FFF#19 = .ok (.setChannel 111#8 0xFF#8)
    ∧ decodeCommand 0x10002#19 = .error .commandMustBeZero

/-- R84: a word that agrees with a line's match under its mask is the line's operation, its operands the fields of the
word; and a word decodes to an operation only if it agrees with that line, so no word is two operations. -/
def Obligations.RowDecodeFollowsOpcodeMap : Prop :=
  ∀ w : RowWord, ∀ h : RowHead, h = ⟨w.getLsbD 28, w.getLsbD 27, w.extractLsb' 16 11⟩ →
    (w &&& 0xE000FFFF#32 = 0x00000000#32 → decodeRow w = .ok (.nop h))
    ∧ (w &&& 0xE000FEFC#32 = 0x20000000#32 → decodeRow w = .ok (.shift h (w.extractLsb' 0 2) (w.getLsbD 8)))
    ∧ (w &&& 0xE000FF00#32 = 0x40000000#32 → decodeRow w = .ok (.setp h (w.extractLsb' 0 8)))
    ∧ (w &&& 0xE0000000#32 = 0x60000000#32 → decodeRow w = .ok (.ldc h (w.extractLsb' 0 16)))
    ∧ (w &&& 0xE000FFE0#32 = 0x80000000#32 → decodeRow w = .ok (.jmp h (w.extractLsb' 0 5)))
    ∧ (w &&& 0xE000FEE0#32 = 0xA0000000#32 → decodeRow w = .ok (.jbit h (w.getLsbD 8) (w.extractLsb' 0 5)))
    ∧ (w &&& 0xE000FFE0#32 = 0xC0000000#32 → decodeRow w = .ok (.jctr h (w.extractLsb' 0 5)))
    ∧ ∀ (g : RowHead) (n : BitVec 2) (d b : Bool) (lit : BitVec 8) (imm : BitVec 16) (t : BitVec 5),
        (decodeRow w = .ok (.nop g) → w &&& 0xE000FFFF#32 = 0x00000000#32)
        ∧ (decodeRow w = .ok (.shift g n d) → w &&& 0xE000FEFC#32 = 0x20000000#32)
        ∧ (decodeRow w = .ok (.setp g lit) → w &&& 0xE000FF00#32 = 0x40000000#32)
        ∧ (decodeRow w = .ok (.ldc g imm) → w &&& 0xE0000000#32 = 0x60000000#32)
        ∧ (decodeRow w = .ok (.jmp g t) → w &&& 0xE000FFE0#32 = 0x80000000#32)
        ∧ (decodeRow w = .ok (.jbit g b t) → w &&& 0xE000FEE0#32 = 0xA0000000#32)
        ∧ (decodeRow w = .ok (.jctr g t) → w &&& 0xE000FFE0#32 = 0xC0000000#32)

/-- Decoding the word an instruction is encoded as gives the instruction back, with every operand at every value; and
every row, command and push has such a word. -/
def Obligations.DecodeEncodeRoundTrip : Prop :=
  ∀ i : Instr,
    (∀ e, encode i = some e → decode e = .ok i) ∧ (i.isFunction = false → ∃ e, encode i = some e)

/-- Encoding what a word decodes to gives the word back: no bit of a row, a command or a queue word is dropped, and no two
words are one instruction. -/
def Obligations.EncodeDecodeRoundTrip : Prop :=
  ∀ (e : Encoded) (i : Instr), decode e = .ok i → encode i = some e

/-! ## A step runs the instruction it takes -/

/-- R101: at a row boundary of a running automaton that accepts no halt, the tick is `exec` of the row that `PROG[PC]`
decodes to. Beside it the step only takes the turn from the schedule. -/
def Obligations.TickRunsTheFetchedRow : Prop :=
  ∀ (s : State) (rest : List Turn) (w : RowWord) (i : Instr),
    s.turns = .tick :: rest → s.run = true → s.dly = 0#11 →
    ¬ (s.haltReq = true ∧ (s.pc = 0#5 ∨ s.stalled = true)) →
    s.cfg.prog[s.pc.toNat]? = some w → decodeRow w = .ok i →
    step s = exec i { s with turns := rest }

/-- A presented command word, other than REBUILD, is `exec` of what it decodes to; an API call is that of its word; and,
the model's choice (log 14), a turn may call one of the pure functions of 42_frame_encoder.md and 43_word_packer.md and
is then `exec` of it. Beside it the step only takes the turn from the schedule. -/
def Obligations.CommandsAndCallsRunTheirInstruction : Prop :=
  ∀ (s : State) (rest : List Turn) (i : Instr),
    (∀ w, s.turns = .command w :: rest → decodeCommand w = .ok i → i ≠ .rebuild →
      step s = exec i { s with turns := rest })
    ∧ (∀ c, s.turns = .api c :: rest → decodeCommand (apiWord c) = .ok i →
      step s = exec i { s with turns := rest })
    ∧ (s.turns = .call i :: rest → i.isFunction = true → step s = exec i { s with turns := rest })

/-- The model's choice, log 1: where no turn is decided the step is that of the free turn of the schedule, whatever turn
that is. -/
def Obligations.UndecidedTurnIsTheFreeOne : Prop :=
  ∀ s : State, s.turns = [] →
    step s = step { s with turns := [Config.freeTurn s.turnNo], turnNo := s.turnNo + 1 }

/-! ## The automaton's rows (40_timing_automaton.md) -/

/-- R111. -/
def Obligations.NopResult : Prop :=
  ∀ (h : RowHead) (s : State), (Instr.nop h).wellFormed s.cfg = true →
    exec (.nop h) s = .next { s with
      stalled := false, side := if h.se then h.sv else s.side,
      pc := BitVec.ofNat 5 ((s.pc.toNat + 1) % s.cfg.prog.length), dly := h.cyc }

/-- R112: in a legal configuration, from the state `u` that the autopull leaves (`u` is `s` while bits remain, and `s`
with the head of the queue in `SR` where none does), SHIFT `n` latches the top `n` bits, the first in the higher place,
shifts the register left with zeros entering, counts them, and with `d` drives them. -/
def Obligations.ShiftResult : Prop :=
  ∀ (h : RowHead) (n : BitVec 2) (d : Bool) (s u : State),
    s.cfg.paramsLegal = true → (Instr.shift h n d).wellFormed s.cfg = true →
    (s.srcnt ≠ s.cfg.wordWidth ∧ u = s
      ∨ s.srcnt = s.cfg.wordWidth ∧ ∃ w rest, s.q = w :: rest ∧ u = { s with sr := w, srcnt := 0, q := rest }) →
    ∃ (v : BitVec 2) (r : Word),
      v.getLsbD 0 = u.sr.testBit (s.cfg.wordWidth - n.toNat)
      ∧ v.getLsbD 1 = (decide (n = 2#2) && u.sr.testBit (s.cfg.wordWidth - 1))
      ∧ (∀ k, r.testBit k = (decide (n.toNat ≤ k ∧ k < s.cfg.wordWidth) && u.sr.testBit (k - n.toNat)))
      ∧ exec (.shift h n d) s = .next { u with
          stalled := false, side := if h.se then h.sv else s.side,
          sr := r, srcnt := u.srcnt + n.toNat, sym := v, pins := if d then v else s.pins,
          pc := BitVec.ofNat 5 ((s.pc.toNat + 1) % s.cfg.prog.length), dly := h.cyc }

/-- R102: a SHIFT that finds the shift register and the queue empty changes `STALLED` and nothing else, so the same row
is tried again at the next tick. -/
def Obligations.EmptyQueueStalls : Prop :=
  ∀ (h : RowHead) (n : BitVec 2) (d : Bool) (s : State),
    (Instr.shift h n d).wellFormed s.cfg = true → s.srcnt = s.cfg.wordWidth → s.q = [] →
    exec (.shift h n d) s = .next { s with stalled := true }

/-- R113: in a legal configuration. -/
def Obligations.SetpResult : Prop :=
  ∀ (h : RowHead) (lit : BitVec 8) (s : State),
    s.cfg.paramsLegal = true → (Instr.setp h lit).wellFormed s.cfg = true →
    exec (.setp h lit) s = .next { s with
      stalled := false, side := if h.se then h.sv else s.side, pins := lit.extractLsb' 0 2,
      pc := BitVec.ofNat 5 ((s.pc.toNat + 1) % s.cfg.prog.length), dly := h.cyc }

/-- R114. -/
def Obligations.LdcResult : Prop :=
  ∀ (h : RowHead) (imm : BitVec 16) (s : State), (Instr.ldc h imm).wellFormed s.cfg = true →
    exec (.ldc h imm) s = .next { s with
      stalled := false, side := if h.se then h.sv else s.side, ctr := imm,
      pc := BitVec.ofNat 5 ((s.pc.toNat + 1) % s.cfg.prog.length), dly := h.cyc }

/-- R115. -/
def Obligations.JmpResult : Prop :=
  ∀ (h : RowHead) (target : BitVec 5) (s : State), (Instr.jmp h target).wellFormed s.cfg = true →
    exec (.jmp h target) s = .next { s with
      stalled := false, side := if h.se then h.sv else s.side, pc := target, dly := h.cyc }

/-- R116: `BIT` is the low bit of `SYM`, and is not consumed. -/
def Obligations.JbitResult : Prop :=
  ∀ (h : RowHead) (b : Bool) (target : BitVec 5) (s : State), (Instr.jbit h b target).wellFormed s.cfg = true →
    exec (.jbit h b target) s = .next { s with
      stalled := false, side := if h.se then h.sv else s.side,
      pc := if s.sym.getLsbD 0 = b then target else BitVec.ofNat 5 ((s.pc.toNat + 1) % s.cfg.prog.length),
      dly := h.cyc }

/-- R117: at zero the counter is not decremented and does not wrap. -/
def Obligations.JctrResult : Prop :=
  ∀ (h : RowHead) (target : BitVec 5) (s : State), (Instr.jctr h target).wellFormed s.cfg = true →
    exec (.jctr h target) s = .next { s with
      stalled := false, side := if h.se then h.sv else s.side,
      ctr := BitVec.ofNat 16 (s.ctr.toNat - 1),
      pc := if s.ctr = 0#16 then BitVec.ofNat 5 ((s.pc.toNat + 1) % s.cfg.prog.length) else target,
      dly := h.cyc }

/-- R85: every reserved row is refused, whichever of the rule's conditions makes it reserved, and START refuses a table
that holds one. -/
def Obligations.ReservedRowsAreRefused : Prop :=
  ∀ (s : State) (h : RowHead),
    (∀ x, exec (.rowReserved x) s = .refused .reservedRow)
    ∧ (∀ n d, n = 0#2 ∨ n = 3#2 ∨ n.toNat ≠ s.cfg.symbolBits → exec (.shift h n d) s = .refused .reservedRow)
    ∧ (∀ lit : BitVec 8, 2 ^ s.cfg.npins ≤ lit.toNat → exec (.setp h lit) s = .refused .reservedRow)
    ∧ (∀ (t : BitVec 5) (b : Bool), s.cfg.prog.length ≤ t.toNat →
        exec (.jmp h t) s = .refused .reservedRow ∧ exec (.jbit h b t) s = .refused .reservedRow
          ∧ exec (.jctr h t) s = .refused .reservedRow)
    ∧ (h.se = false ∧ h.sv = true ∨ h.se = true ∧ s.cfg.sideEn = false →
        ∀ (n : BitVec 2) (d b : Bool) (lit : BitVec 8) (imm : BitVec 16) (t : BitVec 5),
          ∀ i ∈ [Instr.nop h, .shift h n d, .setp h lit, .ldc h imm, .jmp h t, .jbit h b t, .jctr h t],
            exec i s = .refused .reservedRow)
    ∧ (∀ w rest, s.turns = .tick :: rest → s.run = true → s.dly = 0#11 →
        ¬ (s.haltReq = true ∧ (s.pc = 0#5 ∨ s.stalled = true)) → s.cfg.prog[s.pc.toNat]? = some w → (∃ e, decodeRow w = .error e) → step s = .refused .reservedRow)
    ∧ (∀ w ∈ s.cfg.prog, rowWordLegal s.cfg w = false → s.cfg.paramsLegal = true → s.run = false →
        s.srun = false → exec .start s = .refused .illFormedTable)

/-- No row touches what the Streamer and the application own (10_state.md R36): every channel reads as before, and the
track-power flag, the frame, the run bits, the requests, the configuration and the reply are unchanged. -/
def Obligations.RowsLeaveOtherAgentsState : Prop :=
  ∀ (i : Instr) (s t : State), i.isRow = true → exec i s = .next t →
    (∀ a, Memory.read t.ct a = Memory.read s.ct a) ∧ t.tp = s.tp ∧ t.dirty = s.dirty
      ∧ t.frame = s.frame ∧ t.frameValid = s.frameValid ∧ t.idx = s.idx
      ∧ t.run = s.run ∧ t.srun = s.srun ∧ t.haltReq = s.haltReq ∧ t.stopReq = s.stopReq
      ∧ t.cfg = s.cfg ∧ t.reply = s.reply ∧ t.turns = s.turns ∧ t.turnNo = s.turnNo

/-! ## The tick (40_timing_automaton.md) -/

/-- What a tick does before a row boundary and while halted (R101, R105). -/
def Obligations.TickBetweenRows : Prop :=
  ∀ (s : State) (rest : List Turn), s.turns = .tick :: rest →
    (s.run = false → step s = .next { s with turns := rest })
    ∧ (s.run = true → s.dly ≠ 0#11 →
        step s = .next { s with turns := rest, dly := BitVec.ofNat 11 (s.dly.toNat - 1) })

/-- R104: the halt is honoured at a row boundary at which row 0 would begin or the automaton is stalled, with every
register of the rule cleared; at any other tick a running automaton goes on. -/
def Obligations.HaltAtCellBoundaryOnly : Prop :=
  ∀ (s : State) (rest : List Turn), s.turns = .tick :: rest → s.run = true → s.haltReq = true →
    (s.dly = 0#11 ∧ (s.pc = 0#5 ∨ s.stalled = true) →
      step s = .next { s with
        turns := rest, run := false, haltReq := false, stalled := false, pins := 0#2, side := false,
        q := [], srcnt := s.cfg.wordWidth, dly := 0#11, pc := 0#5, ctr := 0#16, sym := 0#2 })
    ∧ (¬ (s.dly = 0#11 ∧ (s.pc = 0#5 ∨ s.stalled = true)) → ∀ t, step s = .next t → t.run = true)

/-- While a row times out, `n` ticks change nothing but `DLY`: the outputs of a row are constant for its `cyc` ticks
after the first (R101, R103). -/
def Obligations.OutputsHoldWhileRowTimesOut : Prop :=
  ∀ (n : Nat) (s : State), s.run = true → n ≤ s.dly.toNat →
    runTicks n s = .next { s with dly := BitVec.ofNat 11 (s.dly.toNat - n) }

/-- Outputs change at the first tick of a row or at the halt and at no other step, in a state that meets the invariant
(R103). -/
def Obligations.OutputsChangeOnlyAtRowBoundaries : Prop :=
  ∀ s t : State, Inv s → step s = .next t → outputs t ≠ outputs s →
    nextTurn s = .tick ∧ s.run = true ∧ s.dly = 0#11

/-- The output trace of an interleaved run (R103), in this order: a START that sets `RUN` begins it anew, with outputs
(0, 0) until its first tick; while `RUN` = 0 the outputs of a state that meets the invariant are (0, 0); a tick of a running
automaton adds the outputs after it, and another agent's step adds nothing and changes no output; after a START and `n`
steps of all agents, in any order, with `RUN` = 1 throughout, the trace has one element for each tick since that START, and
the element at a tick's number, counted from 0 at START, is the outputs after that tick; from any trace and any running
state, as long as no more ticks have come than the row in progress lasts, each element added is the outputs the run of steps
began with, and `DLY` has counted the ticks; and the tick that begins a row adds the outputs the row's other ticks add. -/
def Obligations.OutputTraceOfAnyInterleaving : Prop :=
  (∀ (s t : State) (outs : List (BitVec 2 × Bool)), step s = .next t → s.run = false → t.run = true →
      observe outs s t = [] ∧ outputs t = (0#2, false))
    ∧ (∀ s : State, Inv s → s.run = false → outputs s = (0#2, false))
    ∧ (∀ (s t : State) (outs : List (BitVec 2 × Bool)), step s = .next t → s.run = true →
        (nextTurn s = .tick → observe outs s t = outs ++ [outputs t])
          ∧ (nextTurn s ≠ .tick → observe outs s t = outs ∧ outputs t = outputs s))
    ∧ (∀ (n : Nat) (s u t : State) (outs : List (BitVec 2 × Bool)), step s = .next u → s.run = false → u.run = true →
        Sys2Proof.core.run n u = .next t → (∀ j v, j ≤ n → Sys2Proof.core.run j u = .next v → v.run = true) →
        (runTrace (n + 1) outs s).length = tickCount n u
          ∧ ∀ v, nextTurn t = .tick → step t = .next v →
              (runTrace (n + 2) outs s)[tickCount n u]? = some (outputs v)
                ∧ outAt (n + 2) s (tickCount n u) = some (outputs v))
    ∧ (∀ (n : Nat) (s t : State) (outs : List (BitVec 2 × Bool)), s.run = true → Sys2Proof.core.run n s = .next t →
        tickCount n s ≤ s.dly.toNat →
        runTrace n outs s = outs ++ List.replicate (tickCount n s) (outputs s)
          ∧ (∀ k, k < tickCount n s → outAt n s k = some (outputs s))
          ∧ outputs t = outputs s ∧ t.run = true ∧ t.dly.toNat = s.dly.toNat - tickCount n s)
    ∧ ∀ (n : Nat) (s u t : State) (outs : List (BitVec 2 × Bool)), s.run = true → nextTurn s = .tick → step s = .next u →
        u.run = true → Sys2Proof.core.run n u = .next t → tickCount n u ≤ u.dly.toNat →
        runTrace (n + 1) outs s = outs ++ List.replicate (tickCount n u + 1) (outputs u) ∧ outputs t = outputs u

/-- One Selectrix bit cell of table `SX` at 1 µs a tick, both variants (41_waveform_generators.md R131, R132): from row 0,
from the state `u` that the autopull leaves (`u` is `s` while bits remain, and `s` with the head of the queue in `SR` where
none does; the pull is in the cell's first tick, the lazy order of R101 that log 9 chooses), ten ticks with `SIDE` = 0 and
forty with `SIDE` = 1, the symbol on the pins throughout, and then row 0 again with the symbol consumed. -/
def Obligations.SelectrixBitCell : Prop :=
  ∀ s u : State, s.cfg.paramsLegal = true → s.cfg.sideEn = true → sxTable s.cfg.symbolBits 1000 = some s.cfg.prog →
    s.run = true → s.haltReq = false → s.pc = 0#5 → s.dly = 0#11 →
    (s.srcnt ≠ s.cfg.wordWidth ∧ u = s
      ∨ s.srcnt = s.cfg.wordWidth ∧ ∃ w rest, s.q = w :: rest ∧ u = { s with sr := w, srcnt := 0, q := rest }) →
    (∀ k, k < 50 → ∃ t, runTicks (k + 1) s = .next t ∧ t.side = decide (10 ≤ k)
      ∧ t.pins.getLsbD 0 = u.sr.testBit (s.cfg.wordWidth - s.cfg.symbolBits)
      ∧ t.pins.getLsbD 1 = (decide (s.cfg.symbolBits = 2) && u.sr.testBit (s.cfg.wordWidth - 1)))
    ∧ ∃ t, runTicks 50 s = .next t ∧ t.pc = 0#5 ∧ t.dly = 0#11
        ∧ t.srcnt = u.srcnt + s.cfg.symbolBits ∧ t.q = u.q

/-- The tables of 41_waveform_generators.md are the row words it prints (R131, R135 to R138), and START accepts each in a
configuration of its variant and side group. -/
def Obligations.ProtocolTablesAreThePrintedWords : Prop :=
  sxTable 1 1000 = some [0x30090101#32, 0x18270000#32]
    ∧ sxTable 2 1000 = some [0x30090102#32, 0x18270000#32]
    ∧ sxTable 1 2000 = some [0x30040101#32, 0x18130000#32]
    ∧ dccTable 1000 = some [0x20000001#32, 0xA0000105#32, 0x40630001#32, 0x40600000#32, 0x80000000#32,
        0x40390001#32, 0x40370000#32]
    ∧ dccRcTable 20 1000 = some [0xC0000003#32, 0x59C10000#32, 0x70000013#32, 0x20000001#32, 0xA0000008#32,
        0x40390001#32, 0x40350000#32, 0x80000000#32, 0x40630001#32, 0x40600000#32]
    ∧ mmTable 26 182 1000 = some [0x20000001#32, 0xA0000105#32, 0x40190001#32, 0x40B20000#32, 0x80000000#32,
        0x40B50001#32, 0x40170000#32]
    ∧ mfxTable 1 50 1000 = some [0x20310101#32]
    ∧ (∀ p ∈ [sxTable 1 1000, dccRcTable 20 1000], ∀ ws, p = some ws →
        cfgLegal (cfgFor Config.construction .twoLine true ws) = true)
    ∧ (∀ p ∈ [dccTable 1000, mmTable 26 182 1000, mfxTable 1 50 1000], ∀ ws, p = some ws →
        cfgLegal (cfgFor Config.construction .twoLine false ws) = true)
    ∧ ∀ ws, sxTable 2 1000 = some ws → cfgLegal (cfgFor Config.construction .differential true ws) = true

/-- The symbols successive SHIFT rows latch from a word are the bits UNPACK gives, in order (43_word_packer.md R171): where
`SR` holds what is left of `w` after `SRCNT` bits, SHIFT latches the next bits of `w` and leaves what is left after
them. -/
def Obligations.ShiftOutFollowsUnpack : Prop :=
  ∀ (h : RowHead) (n : BitVec 2) (d : Bool) (s : State) (w : Nat),
    s.cfg.paramsLegal = true → (Instr.shift h n d).wellFormed s.cfg = true → w < 2 ^ s.cfg.wordWidth →
    s.srcnt + n.toNat ≤ s.cfg.wordWidth → s.sr = w * 2 ^ s.srcnt % 2 ^ s.cfg.wordWidth →
    ∃ t, exec (.shift h n d) s = .next t ∧ t.srcnt = s.srcnt + n.toNat
      ∧ t.sr = w * 2 ^ t.srcnt % 2 ^ s.cfg.wordWidth
      ∧ t.sym.toNat = bitsVal (((unpackWords [w] s.cfg.wordWidth).drop s.srcnt).take n.toNat)

/-! ## Commands (44_streamer_commands.md, 60_exceptions.md) -/

/-- R180: an address up to 111 is written and marks the table dirty in the same step, and every other channel reads as
before; an address above is rejected and nothing changes but the reply. -/
def Obligations.SetChannelResult : Prop :=
  ∀ (a : BitVec 8) (v : Byte) (s : State), Memory.wf s.ct = true →
    (a.toNat ≤ 111 → ∃ m, exec (.setChannel a v) s = .next { s with ct := m, dirty := true, reply := .ok }
      ∧ Memory.wf m = true ∧ Memory.read m a.toNat = v
      ∧ ∀ b, b ≠ a.toNat → Memory.read m b = Memory.read s.ct b)
    ∧ (111 < a.toNat → exec (.setChannel a v) s = .next { s with
        reply := .configError .badAddress (cmdWord 0b000#3 a v) })

/-- R181. -/
def Obligations.SetTrackPowerResult : Prop :=
  ∀ (on : Bool) (s : State),
    exec (.setTrackPower on) s = .next { s with tp := on, dirty := true, reply := .ok }

/-- R182: START has no effect while the Streamer or the automaton runs; fully stopped, in a legal configuration, it
starts both. -/
def Obligations.StartResult : Prop :=
  ∀ s : State,
    (s.srun = true ∨ s.run = true → exec .start s = .next { s with reply := .ok })
    ∧ (s.srun = false → s.run = false → s.cfg.paramsLegal = true → tableLegal s.cfg = true →
      exec .start s = .next { s with
        q := [], srcnt := s.cfg.wordWidth, sym := 0#2, ctr := 0#16, dly := 0#11, pc := 0#5, pins := 0#2,
        side := false, stalled := false, haltReq := false, stopReq := false, idx := 0, run := true, srun := true,
        reply := .ok })

/-- START outside the domain is refused by name (70_reset_and_hazards.md R226, 93_implementation_defined.md U6, U8; that
a table without a SHIFT row is among these is U6's, log 7). -/
def Obligations.StartOutsideTheDomainIsRefused : Prop :=
  ∀ s : State, s.srun = false → s.run = false →
    (s.cfg.paramsLegal = false → exec .start s = .refused .illegalConfig)
    ∧ (s.cfg.paramsLegal = true →
        s.cfg.prog = [] ∨ 32 < s.cfg.prog.length ∨ (∀ w ∈ s.cfg.prog, isShiftWord w = false) →
        exec .start s = .refused .illFormedTable)

/-- R183. -/
def Obligations.StopResult : Prop :=
  ∀ s : State,
    (s.srun = true → exec .stop s = .next { s with stopReq := true, reply := .ok })
    ∧ (s.srun = false → exec .stop s = .next { s with reply := .ok })

/-- The three reserved command rows raise `ConfigError(BAD_COMMAND)` with the offending word and change nothing else
(R88, R201). -/
def Obligations.ReservedCommandsRaise : Prop :=
  ∀ (x : BitVec 16) (s : State),
    exec (.cmdReserved5 x) s = .next { s with reply := .configError .badCommand (0b101#3 ++ x) }
    ∧ exec (.cmdReserved6 x) s = .next { s with reply := .configError .badCommand (0b110#3 ++ x) }
    ∧ exec (.cmdReserved7 x) s = .next { s with reply := .configError .badCommand (0b111#3 ++ x) }

/-- R88, by the fields of the presented word: each reserved word is rejected with `ConfigError` and changes no state. -/
def Obligations.ReservedCommandWordsAreRejected : Prop :=
  ∀ (s : State) (rest : List Turn) (cmd : BitVec 3) (a v : BitVec 8),
    s.turns = .command (cmdWord cmd a v) :: rest →
    (cmd = 5#3 ∨ cmd = 6#3 ∨ cmd = 7#3 ∨ cmd = 4#3 ∨ cmd = 1#3 ∧ (a ≠ 0#8 ∨ 1 < v.toNat)
        ∨ (cmd = 2#3 ∨ cmd = 3#3) ∧ (a ≠ 0#8 ∨ v ≠ 0#8) →
      step s = .next { s with turns := rest, reply := .configError .badCommand (cmdWord cmd a v) })
    ∧ (cmd = 0#3 ∧ 112 ≤ a.toNat →
      step s = .next { s with turns := rest, reply := .configError .badAddress (cmdWord cmd a v) })

/-- R202: a channel value at the API is reduced to its low 8 bits and accepted; SET_TRACK_POWER takes a boolean, and in
its command word a value above 1 is `BAD_COMMAND`. -/
def Obligations.ApiValuesAreMasked : Prop :=
  ∀ (s : State) (rest : List Turn),
    (∀ address value, s.turns = .api (.setChannel address value) :: rest →
      step s = exec (.setChannel address (BitVec.ofNat 8 (value % 256))) { s with turns := rest })
    ∧ (∀ on, s.turns = .api (.setTrackPower on) :: rest →
      step s = exec (.setTrackPower on) { s with turns := rest })
    ∧ (∀ v : BitVec 8, 1 < v.toNat → s.turns = .command (cmdWord 1#3 0#8 v) :: rest →
      step s = .next { s with turns := rest, reply := .configError .badCommand (cmdWord 1#3 0#8 v) })

/-! ## The Streamer (44_streamer_commands.md) -/

/-- R187: where it is enabled, the rebuild clears `DIRTY` and replaces the frame by the packed image of the snapshot of
`CT` and `TP`, in one step. Where it is not enabled the model's reading, not the rule's, is that nothing happens
(log 8). -/
def Obligations.RebuildResult : Prop :=
  ∀ s : State,
    (s.srun = true → s.stopReq = false → s.idx = 0 → s.dirty = true →
      exec .rebuild s = .next { s with
        dirty := false, frameValid := true
        frame := packBits (frameBits s.cfg ((List.range 112).map (Memory.read s.ct)) s.tp) s.cfg.wordWidth })
    ∧ (s.srun = false ∨ s.stopReq = true ∨ s.idx ≠ 0 ∨ s.dirty = false → exec .rebuild s = .next s)

/-- PUSH appends a `W`-bit word at the tail while the queue is not full (R184, R55). With the queue full R55 says that the
pusher has no step, and the model's reading is that the next state is the state unchanged (log 8). -/
def Obligations.PushResult : Prop :=
  ∀ (w : Word) (s : State), w < 2 ^ s.cfg.wordWidth →
    (s.q.length < s.cfg.qdepth → exec (.push w) s = .next { s with q := s.q ++ [w] })
    ∧ (s.cfg.qdepth ≤ s.q.length → exec (.push w) s = .next s)

/-- R186: which step the Streamer takes, for every row of table T-R186. With a stop requested inside a pass both the stop
and a push are allowed (R189). That the turn's `f` says which of the two is taken, and that a turn with no step enabled
changes nothing, is the model's choice (log 8). -/
def Obligations.StreamerTakesTheEnabledStep : Prop :=
  ∀ (s : State) (rest : List Turn) (f : Bool), s.turns = .streamer f :: rest →
    (s.srun = false → step s = .next { s with turns := rest })
    ∧ (s.srun = true → s.stopReq = true →
        f = false ∨ s.idx = 0 ∨ s.cfg.qdepth ≤ s.q.length ∨ s.frameValid = false →
        step s = .next { s with turns := rest, srun := false, stopReq := false, haltReq := true })
    ∧ (s.srun = true → s.stopReq = false → s.idx = 0 → s.dirty = true →
        step s = exec .rebuild { s with turns := rest })
    ∧ (∀ w, s.srun = true → s.frameValid = true → s.q.length < s.cfg.qdepth →
        s.stopReq = false ∧ ¬ (s.idx = 0 ∧ s.dirty = true) ∨ s.stopReq = true ∧ s.idx ≠ 0 ∧ f = true →
        s.frame[s.idx]? = some w → w < 2 ^ s.cfg.wordWidth →
        step s = .next { s with turns := rest, q := s.q ++ [w], idx := (s.idx + 1) % nwords s.cfg })
    ∧ (s.srun = true → s.stopReq = false → ¬ (s.idx = 0 ∧ s.dirty = true) → s.cfg.qdepth ≤ s.q.length →
        step s = .next { s with turns := rest })

/-- "Stopping immediately after `start()` must leave output pins at their defined idle level, never mid-symbol" (R189,
95_test_vectors.md S7): START, STOP, the Streamer's step and one tick end halted with idle outputs, whatever the table
and whichever way the Streamer chooses, and no frame is built. -/
def Obligations.StopRightAfterStartLeavesIdle : Prop :=
  ∀ (s : State) (rest : List Turn) (f : Bool), s.run = false → s.srun = false → cfgLegal s.cfg = true →
    s.turns = .api .start :: .api .stop :: .streamer f :: .tick :: rest →
    ∃ t, Sys2Proof.core.run 4 s = .next t ∧ t.run = false ∧ t.srun = false ∧ t.haltReq = false
      ∧ t.pins = 0#2 ∧ t.side = false ∧ t.q = [] ∧ t.turns = rest
      ∧ t.dirty = s.dirty ∧ t.frame = s.frame ∧ t.frameValid = s.frameValid ∧ t.ct = s.ct ∧ t.tp = s.tp

/-- The model's choice, log 12: what the load of 00_scope.md R5 does as one turn. It is refused while anything runs
(R62, U11) and where the configuration or the table is not legal (60_exceptions.md T-R203: "refused at load, before
START"). Stopped, a legal one is placed unchanged if it is the first or keeps the parameters, with `FRAME` kept once a
rebuild has filled it; and after the first load one that changes a parameter of 00_scope.md R6 is refused. -/
def Obligations.LoadOnlyWhileStopped : Prop :=
  ∀ (s : State) (rest : List Turn) (c : Cfg), s.turns = .load c :: rest →
    (s.run = true ∨ s.srun = true → step s = .refused .loadWhileRunning)
    ∧ (s.run = false → s.srun = false →
        (c.paramsLegal = false → step s = .refused .illegalConfig)
        ∧ (c.paramsLegal = true → tableLegal c = false → step s = .refused .illFormedTable)
        ∧ (cfgLegal c = true → s.cfg.prog = [] ∨ Cfg.sameParams s.cfg c = true → s.frameValid = false →
          step s = .next { s with
            turns := rest, cfg := c, srcnt := c.wordWidth, frame := List.replicate (nwords c) 0 })
        ∧ (cfgLegal c = true → s.cfg.prog = [] ∨ Cfg.sameParams s.cfg c = true → s.frameValid = true →
          step s = .next { s with turns := rest, cfg := c, srcnt := c.wordWidth })
        ∧ (cfgLegal c = true → s.cfg.prog ≠ [] → Cfg.sameParams s.cfg c = false →
          step s = .refused .parameterChanged))

/-- The parameters of 00_scope.md R6 never change once a table has been loaded: whatever step is taken, each is as before,
and there is still a table. That the first load completes the construction is the model's choice (log 12). -/
def Obligations.ParametersAreFixedOnceLoaded : Prop :=
  ∀ s t : State, s.cfg.prog ≠ [] → step s = .next t →
    t.cfg.prog ≠ [] ∧ t.cfg.variant = s.cfg.variant ∧ t.cfg.symbolBits = s.cfg.symbolBits
      ∧ t.cfg.npins = s.cfg.npins ∧ t.cfg.wordWidth = s.cfg.wordWidth ∧ t.cfg.qdepth = s.cfg.qdepth
      ∧ t.cfg.cycleNs = s.cfg.cycleNs ∧ t.cfg.addrInvert = s.cfg.addrInvert ∧ t.cfg.polInit = s.cfg.polInit

/-! ## The Frame Encoder (42_frame_encoder.md) -/

/-- R150. -/
def Obligations.EncodeByteResult : Prop :=
  ∀ (v : Byte) (s : State), exec (.encodeByte v) s = .next { s with
    reply := .bits [v.getLsbD 7, v.getLsbD 6, true, v.getLsbD 5, v.getLsbD 4, true,
      v.getLsbD 3, v.getLsbD 2, true, v.getLsbD 1, v.getLsbD 0, true] }

/-- R151: DECODE_BYTE returns the value whose bits are the eight data positions (position `p` is bit `11 - p` of the
operand), whatever the stuffing positions hold; it recovers every encoded value, and the encoded values are exactly the
patterns with a 1 at positions 2, 5, 8, 11. -/
def Obligations.DecodeByteInvertsEncodeByte : Prop :=
  (∀ (x : BitVec 12) (s : State), ∃ v, exec (.decodeByte x) s = .next { s with reply := .byte v }
      ∧ (v.getLsbD 7 = x.getLsbD 11 ∧ v.getLsbD 6 = x.getLsbD 10 ∧ v.getLsbD 5 = x.getLsbD 8
        ∧ v.getLsbD 4 = x.getLsbD 7 ∧ v.getLsbD 3 = x.getLsbD 5 ∧ v.getLsbD 2 = x.getLsbD 4
        ∧ v.getLsbD 1 = x.getLsbD 2 ∧ v.getLsbD 0 = x.getLsbD 1))
    ∧ (∀ v : Byte, decodeByte (BitVec.ofNat 12 (bitsVal (encodeByte v))) = v)
    ∧ (∀ x : BitVec 12, (∃ v, bitsVal (encodeByte v) = x.toNat) ↔
        x.getLsbD 9 = true ∧ x.getLsbD 6 = true ∧ x.getLsbD 3 = true ∧ x.getLsbD 0 = true)

/-- R152: the header's twelve bits; two headers that differ in `tp` only differ at position 4 only; and the block index is
recovered from positions 6, 7, 9, 10. -/
def Obligations.EncodeHeaderResult : Prop :=
  ∀ (b : BitVec 4) (tp : Bool) (s : State),
    (∃ a : BitVec 4, a.toNat = (if s.cfg.addrInvert then 15 - b.toNat else b.toNat)
      ∧ exec (.encodeHeader b tp) s = .next { s with
          reply := .bits [false, false, false, true, tp, true, a.getLsbD 3, a.getLsbD 2, true,
            a.getLsbD 1, a.getLsbD 0, true] })
    ∧ (∀ inv, (encodeHeader inv b false).set 4 true = encodeHeader inv b true)
    ∧ (∀ inv, headerIndex inv (encodeHeader inv b tp) = b)

/-- R153: the header, then the seven channels `b + 16k`. -/
def Obligations.EncodeBlockResult : Prop :=
  ∀ (b : BitVec 4) (ct : List Byte) (tp : Bool) (s : State), ct.length = 112 →
    ∃ bits, exec (.encodeBlock b ct tp) s = .next { s with reply := .bits bits }
      ∧ bits.length = 96
      ∧ bits = encodeHeader s.cfg.addrInvert b tp
          ++ encodeByte (ct.getD b.toNat 0#8) ++ encodeByte (ct.getD (b.toNat + 16) 0#8)
          ++ encodeByte (ct.getD (b.toNat + 32) 0#8) ++ encodeByte (ct.getD (b.toNat + 48) 0#8)
          ++ encodeByte (ct.getD (b.toNat + 64) 0#8) ++ encodeByte (ct.getD (b.toNat + 80) 0#8)
          ++ encodeByte (ct.getD (b.toNat + 96) 0#8)

/-- R74 with R155: a frame is 1536 bits, block `b` is bits 96b to 96b + 95, and bit `i` of channel `a` stands at position
96·(a mod 16) + 12 + 12·(a div 16) + o(i), with o(7..0) = 0, 1, 3, 4, 6, 7, 9, 10. -/
def Obligations.EncodeFrameLayout : Prop :=
  ∀ (ct : List Byte) (tp : Bool) (s : State), ct.length = 112 →
    ∃ bits, exec (.encodeFrame ct tp) s = .next { s with reply := .bits bits }
      ∧ bits.length = 1536
      ∧ (∀ b, b < 16 → (bits.drop (96 * b)).take 96 = encodeBlock s.cfg.addrInvert (BitVec.ofNat 4 b) ct tp)
      ∧ (∀ a i, a < 112 → i < 8 →
          bits[96 * (a % 16) + 12 + 12 * (a / 16) + [10, 9, 7, 6, 4, 3, 1, 0].getD i 0]?
            = some ((ct.getD a 0#8).getLsbD i))

/-- R156 in its closed form: symbol `i` has polarity `POL_INIT` XOR the first `i + 1` input bits, and is that polarity
followed by its complement. -/
def Obligations.PolarityMapResult : Prop :=
  ∀ (bits : Bits) (s : State), ∃ out, exec (.polarityMap bits) s = .next { s with reply := .bits out }
    ∧ out.length = 2 * bits.length
    ∧ ∀ i, i < bits.length →
        out[2 * i]? = some ((bits.take (i + 1)).foldl Bool.xor s.cfg.polInit)
        ∧ out[2 * i + 1]? = some (!(bits.take (i + 1)).foldl Bool.xor s.cfg.polInit)

/-- R157: the number of toggles, counting the one before the first symbol, is the number of 1 bits, so an all-zero input
never toggles and an all-one input of length `L` toggles `L` times; the polarity of the last symbol (its first bit) is
`finalPolarity`, the starting one XOR the number of ones mod 2; every symbol is one of the two; an all-zero input repeats
the starting symbol; and on an all-one input the symbols alternate, the first the toggled one. -/
def Obligations.PolarityLaws : Prop :=
  ∀ (pol : Bool) (bits : Bits),
    finalPolarity pol bits = (pol ^^ decide (bits.count true % 2 = 1))
    ∧ (bits ≠ [] → (mapPolarity pol bits)[2 * (bits.length - 1)]? = some (finalPolarity pol bits))
    ∧ (List.range bits.length).countP (fun i =>
        (mapPolarity pol bits).getD (2 * i) false
          != (if i = 0 then pol else (mapPolarity pol bits).getD (2 * (i - 1)) false)) = bits.count true
    ∧ (∀ i, i < bits.length → ((mapPolarity pol bits).drop (2 * i)).take 2 = [true, false]
        ∨ ((mapPolarity pol bits).drop (2 * i)).take 2 = [false, true])
    ∧ (∀ n, mapPolarity pol (List.replicate n false) = (List.replicate n (polaritySymbol pol)).flatten)
    ∧ (∀ n i, i < n → ((mapPolarity pol (List.replicate n true)).drop (2 * i)).take 2
        = polaritySymbol (pol ^^ decide (i % 2 = 0)))

/-! ## The Word Packer (43_word_packer.md) -/

/-- R170: `ceil(L / W)` words of `W` bits; bit `W − 1 − i` of word `j` is bit `jW + i` of the sequence, and zero past its
end. -/
def Obligations.PackResult : Prop :=
  ∀ (bits : Bits) (width u : Nat) (s : State), 1 ≤ width → u = 1 ∨ u = 2 → width % u = 0 → bits.length % u = 0 →
    ∃ ws, exec (.pack bits width u) s = .next { s with reply := .words ws }
      ∧ ws.length = (bits.length + width - 1) / width
      ∧ (∀ w ∈ ws, w < 2 ^ width)
      ∧ ∀ j i, j < ws.length → i < width →
          (ws.getD j 0).testBit (width - 1 - i) = bits.getD (j * width + i) false

/-- R171's first law, with UNPACK's result: unpacking packed words gives the sequence back, followed by the zeros of the
padding. -/
def Obligations.UnpackInvertsPack : Prop :=
  (∀ (words : List Nat) (width : Nat) (s : State), 1 ≤ width → (∀ w ∈ words, w < 2 ^ width) →
      ∃ bits, exec (.unpack words width) s = .next { s with reply := .bits bits }
        ∧ bits.length = words.length * width
        ∧ ∀ j i, j < words.length → i < width →
            bits[j * width + i]? = some ((words.getD j 0).testBit (width - 1 - i)))
    ∧ ∀ (bits : Bits) (width : Nat), 1 ≤ width →
        unpackWords (packBits bits width) width
          = bits ++ List.replicate ((bits.length + width - 1) / width * width - bits.length) false

/-- Operands a symbol would straddle or be cut by are refused (43_word_packer.md R172), as is a table that has not 112
entries (42_frame_encoder.md R153, R155), and a call turn that names a row, a command or PUSH, which no caller may issue
(60_exceptions.md R208). That such a call is a turn and is refused is the model's choice (log 14). -/
def Obligations.IllFormedOperandsAreRefused : Prop :=
  ∀ s : State,
    (∀ bits width u, u ≠ 1 ∧ u ≠ 2 ∨ width = 0 ∨ width % u ≠ 0 ∨ bits.length % u ≠ 0 →
      exec (.pack bits width u) s = .refused .illFormedOperand)
    ∧ (∀ b ct tp, ct.length ≠ 112 →
      exec (.encodeBlock b ct tp) s = .refused .illFormedOperand
        ∧ exec (.encodeFrame ct tp) s = .refused .illFormedOperand)
    ∧ (∀ words width, width = 0 ∨ (∃ w ∈ words, 2 ^ width ≤ w) →
      exec (.unpack words width) s = .refused .illFormedOperand)
    ∧ (∀ i rest, s.turns = .call i :: rest → i.isFunction = false → step s = .refused .notAFunction)

/-- The image a rebuild packs has `NWORDS` words (10_state.md R31): 48 and 96 at `W` = 32, for any table and flag. -/
def Obligations.FrameImageSize : Prop :=
  ∀ (c : Cfg) (ct : List Byte) (tp : Bool),
    (frameImage c ct tp).length = nwords c
    ∧ (c.wordWidth = 32 → c.variant = .twoLine → nwords c = 48)
    ∧ (c.wordWidth = 32 → c.variant = .differential → nwords c = 96)

/-! ## The whole machine -/

/-- T-R35 where it gives a value; `SR`, `FRAME` and `CFG` are left to the log (3, 4, 5). -/
def Obligations.ResetLeavesWhatTheSpecSays : Prop :=
  (∀ a, Memory.read State.reset.ct a = 0#8)
    ∧ State.reset.tp = false ∧ State.reset.dirty = true ∧ State.reset.frameValid = false ∧ State.reset.q = []
    ∧ State.reset.srcnt = State.reset.cfg.wordWidth ∧ State.reset.sym = 0#2 ∧ State.reset.ctr = 0#16
    ∧ State.reset.dly = 0#11 ∧ State.reset.pc = 0#5 ∧ outputs State.reset = (0#2, false)
    ∧ State.reset.run = false ∧ State.reset.srun = false ∧ State.reset.haltReq = false
    ∧ State.reset.stopReq = false ∧ State.reset.stalled = false ∧ State.reset.idx = 0

/-- The invariant holds after reset (R190, R35). -/
def Obligations.ResetMeetsTheInvariant : Prop := Inv State.reset

/-- The invariant is kept by every step of every agent, from every state that meets it (R190, I1 to I6, with the ranges of
10_state.md). -/
def Obligations.EveryStepKeepsTheInvariant : Prop :=
  ∀ s t : State, Inv s → step s = .next t → Inv t

/-- Whatever the agents do after construction, in whatever order, loads, commands, Streamer steps, ticks and calls, the
invariant holds after every run of it (R190: "true after every step from reset on"). -/
def Obligations.EveryInterleavingFromResetKeepsTheInvariant : Prop :=
  ∀ (turns : List Turn) (k : Nat) (t : State),
    Sys2Proof.core.run k { State.reset with turns := turns } = .next t → Inv t

/-- No error stops a sound machine (60_exceptions.md R203, R105): from a state that meets the invariant every tick, every
Streamer step and every presented command other than START answers a next state. -/
def Obligations.SoundMachineNeverStops : Prop :=
  ∀ s : State, Inv s → (nextTurn s).unconditional = true → ∃ t, step s = .next t

/-- `CFG` with `PROG` is constant while the automaton runs, and at any step but a load (R62, R30). -/
def Obligations.ConfigurationIsConstantWhileRunning : Prop :=
  ∀ s t : State, step s = .next t →
    (s.run = true ∨ s.srun = true → t.cfg = s.cfg) ∧ ((∀ c, nextTurn s ≠ .load c) → t.cfg = s.cfg)

/-- Only SET_CHANNEL writes the ChannelTable, and only the entry it names (10_state.md R29, R36). -/
def Obligations.OnlySetChannelWritesTheTable : Prop :=
  ∀ (s t : State) (a : Nat), Memory.wf s.ct = true → step s = .next t → Memory.read t.ct a ≠ Memory.read s.ct a →
    a < 112 ∧ t.dirty = true
      ∧ ∃ w, (nextTurn s = .command w ∨ ∃ c, nextTurn s = .api c ∧ apiWord c = w)
          ∧ decodeCommand w = .ok (.setChannel (BitVec.ofNat 8 a) (Memory.read t.ct a))

/-- No accepted mutation is lost (10_state.md R20, 20_memory.md R56): `DIRTY` is cleared by the rebuild and by nothing
else, in the step that makes the frame the image of the table and flag as they stand. -/
def Obligations.DirtyIsClearedOnlyByTheRebuild : Prop :=
  ∀ s t : State, step s = .next t → s.dirty = true → t.dirty = false →
    (∃ f, nextTurn s = .streamer f) ∧ s.srun = true ∧ s.stopReq = false ∧ s.idx = 0
      ∧ t.frame = frameImage t.cfg (Memory.snapshot t.ct) t.tp ∧ t.frameValid = true

/-- A frame is never switched in the middle of a pass (44_streamer_commands.md R187): while the Streamer runs, `FRAME`
changes at `IDX` = 0 only, to the image of the table and flag. -/
def Obligations.FrameChangesOnlyBetweenPasses : Prop :=
  ∀ s t : State, s.srun = true → step s = .next t → t.frame ≠ s.frame →
    s.idx = 0 ∧ t.idx = 0 ∧ t.q = s.q ∧ t.frame = frameImage s.cfg (Memory.snapshot s.ct) s.tp

/-- R55: words leave in the order they entered: the automaton's tick pops the head, the Streamer's push appends at the
tail while there is room, only the halt and START empty the queue, and no other step touches it. -/
def Obligations.QueueIsFirstInFirstOut : Prop :=
  ∀ s t : State, step s = .next t →
    t.q = s.q
    ∨ (nextTurn s = .tick ∧ ∃ w, s.q = w :: t.q)
    ∨ ((∃ f, nextTurn s = .streamer f) ∧ s.q.length < s.cfg.qdepth ∧ ∃ w, t.q = s.q ++ [w])
    ∨ (t.q = [] ∧ nextTurn s = .tick ∧ s.run = true ∧ t.run = false)
    ∨ (t.q = [] ∧ s.run = false ∧ t.run = true)
end

