-- ==== Sys2Proof/Laws/Memory.lean ====
section
/-! SUPPORT. The laws of the ChannelTable's operations (10_state.md R29): reading after writing, and the canonical form
every operation keeps. -/

namespace Sys2Proof.Machine

theorem Memory.read_nil (a : Nat) : Memory.read [] a = Config.ctReset := rfl

theorem Memory.read_cons (k : Nat) (v : Byte) (m : List Host.Cell) (a : Nat) :
    Memory.read ((k, v) :: m) a = if k = a then v else Memory.read m a := rfl

theorem Memory.wfFrom_cons (lo k : Nat) (v : Byte) (m : List Host.Cell) :
    Memory.wfFrom lo ((k, v) :: m) = true ↔
      lo ≤ k ∧ k < Config.nChannels ∧ v ≠ Config.ctReset ∧ Memory.wfFrom (k + 1) m = true := by
  simp [Memory.wfFrom, and_assoc]

/-- A list whose addresses all lie at `lo` or above reads as reset below `lo`. -/
theorem Memory.read_below (m : List Host.Cell) (lo a : Nat) (h : Memory.wfFrom lo m = true) (ha : a < lo) :
    Memory.read m a = Config.ctReset := by
  induction m generalizing lo with
  | nil => rfl
  | cons c m ih =>
    obtain ⟨k, v⟩ := c
    obtain ⟨h1, _, _, h4⟩ := (Memory.wfFrom_cons lo k v m).1 h
    rw [Memory.read_cons, if_neg (by omega)]
    exact ih (k + 1) h4 (by omega)

/-- Reading the entry just written gives the value written. -/
theorem Memory.read_write_same (m : List Host.Cell) (lo a : Nat) (v : Byte) (h : Memory.wfFrom lo m = true) :
    Memory.read (Memory.write m a v) a = v := by
  induction m generalizing lo with
  | nil => by_cases hv : v = Config.ctReset <;> simp [Memory.write, Memory.read, hv]
  | cons c m ih =>
    obtain ⟨k, x⟩ := c
    obtain ⟨_, _, _, h4⟩ := (Memory.wfFrom_cons lo k x m).1 h
    unfold Memory.write
    split
    · rw [Memory.read_cons, if_neg (by omega)]
      exact ih (k + 1) h4
    · split
      · next hk =>
        split
        · next hv => rw [hv]; exact Memory.read_below m (k + 1) a h4 (by omega)
        · simp [Memory.read]
      · split
        · next hv =>
          rw [Memory.read_cons, if_neg (by omega), hv]
          exact Memory.read_below m (k + 1) a h4 (by omega)
        · simp [Memory.read]

/-- A write leaves every other entry alone. -/
theorem Memory.read_write_other (m : List Host.Cell) (a b : Nat) (v : Byte) (hab : b ≠ a) :
    Memory.read (Memory.write m a v) b = Memory.read m b := by
  induction m with
  | nil => by_cases hv : v = Config.ctReset <;> simp [Memory.write, Memory.read, hv, Ne.symm hab]
  | cons c m ih =>
    obtain ⟨k, x⟩ := c
    unfold Memory.write
    split
    · simp only [Memory.read_cons, ih]
    · split
      · next hk =>
        subst hk
        split <;> simp [Memory.read, Ne.symm hab]
      · split <;> simp [Memory.read, Ne.symm hab]

/-- A list from `hi` on is a list from any lower address on. -/
theorem Memory.wfFrom_mono (m : List Host.Cell) (lo hi : Nat) (hle : lo ≤ hi) (h : Memory.wfFrom hi m = true) :
    Memory.wfFrom lo m = true := by
  cases m with
  | nil => rfl
  | cons c m =>
    obtain ⟨k, x⟩ := c
    obtain ⟨h1, h2, h3, h4⟩ := (Memory.wfFrom_cons hi k x m).1 h
    exact (Memory.wfFrom_cons lo k x m).2 ⟨by omega, h2, h3, h4⟩

/-- A write keeps the canonical form. -/
theorem Memory.wfFrom_write (m : List Host.Cell) (lo a : Nat) (v : Byte) (h : Memory.wfFrom lo m = true)
    (hlo : lo ≤ a) (ha : a < Config.nChannels) : Memory.wfFrom lo (Memory.write m a v) = true := by
  induction m generalizing lo with
  | nil => by_cases hv : v = Config.ctReset <;> simp_all [Memory.write, Memory.wfFrom]
  | cons c m ih =>
    obtain ⟨k, x⟩ := c
    obtain ⟨h1, h2, h3, h4⟩ := (Memory.wfFrom_cons lo k x m).1 h
    unfold Memory.write
    split
    · exact (Memory.wfFrom_cons lo k x _).2 ⟨h1, h2, h3, ih (k + 1) h4 (by omega)⟩
    · split
      · next hk =>
        subst hk
        split
        · next hv => exact Memory.wfFrom_mono m lo (k + 1) (by omega) h4
        · next hv => exact (Memory.wfFrom_cons lo k v m).2 ⟨hlo, ha, hv, h4⟩
      · split
        · exact h
        · next hv =>
          exact (Memory.wfFrom_cons lo a v _).2
            ⟨hlo, ha, hv, (Memory.wfFrom_cons (a + 1) k x m).2 ⟨by omega, h2, h3, h4⟩⟩

/-- The write SET_CHANNEL makes keeps the canonical form. -/
theorem Memory.wf_write (m : List Host.Cell) (a : Nat) (v : Byte) (h : Memory.wf m = true)
    (ha : a < Config.nChannels) : Memory.wf (Memory.write m a v) = true :=
  Memory.wfFrom_write m 0 a v h (Nat.zero_le a) ha

/-- The ChannelTable at reset is in canonical form. -/
theorem reset_ct_wf : Memory.wf State.reset.ct = true := rfl

/-- Two canonical tables that read alike are the same data. -/
theorem Memory.ext_of_wfFrom (m n : List Host.Cell) (lo : Nat) (hm : Memory.wfFrom lo m = true)
    (hn : Memory.wfFrom lo n = true) (h : ∀ a, Memory.read m a = Memory.read n a) : m = n := by
  induction m generalizing n lo with
  | nil =>
    cases n with
    | nil => rfl
    | cons c n =>
      obtain ⟨k, v⟩ := c
      obtain ⟨_, _, h3, _⟩ := (Memory.wfFrom_cons lo k v n).1 hn
      have := h k
      simp [Memory.read] at this
      exact absurd this.symm h3
  | cons c m ih =>
    obtain ⟨k, v⟩ := c
    obtain ⟨m1, m2, m3, m4⟩ := (Memory.wfFrom_cons lo k v m).1 hm
    cases n with
    | nil =>
      have := h k
      simp [Memory.read] at this
      exact absurd this m3
    | cons d n =>
      obtain ⟨j, w⟩ := d
      obtain ⟨n1, n2, n3, n4⟩ := (Memory.wfFrom_cons lo j w n).1 hn
      rcases Nat.lt_trichotomy k j with hkj | hkj | hkj
      · have hk := h k
        rw [Memory.read_cons, if_pos rfl, Memory.read_cons, if_neg (by omega),
          Memory.read_below n (j + 1) k n4 (by omega)] at hk
        exact absurd hk m3
      · subst hkj
        have hv := h k
        rw [Memory.read_cons, if_pos rfl, Memory.read_cons, if_pos rfl] at hv
        subst hv
        have : m = n := by
          refine ih n (k + 1) m4 n4 (fun a => ?_)
          by_cases hak : k = a
          · rw [Memory.read_below m (k + 1) a m4 (by omega), Memory.read_below n (k + 1) a n4 (by omega)]
          · have := h a
            rwa [Memory.read_cons, if_neg hak, Memory.read_cons, if_neg hak] at this
        rw [this]
      · have hj := h j
        rw [Memory.read_cons, if_neg (by omega), Memory.read_below m (k + 1) j m4 (by omega),
          Memory.read_cons, if_pos rfl] at hj
        exact absurd hj.symm n3

/-- The snapshot has one value per channel (44_streamer_commands.md R187). -/
@[simp] theorem Memory.snapshot_length (m : List Host.Cell) :
    (Memory.snapshot m).length = Config.nChannels := by
  simp [Memory.snapshot]

theorem Memory.snapshot_getD (m : List Host.Cell) (a : Nat) (h : a < Config.nChannels) :
    (Memory.snapshot m).getD a Config.ctReset = Memory.read m a := by
  simp [Memory.snapshot, List.getD, h]

end Sys2Proof.Machine
end

