-- ==== Sys2Proof/Laws/State.lean ====
section
/-! SUPPORT. One lemma per field per update of State, so that no proof unfolds a record update. -/

namespace Sys2Proof.Machine

variable (s : State)

/-! ### beginRow: `STALLED <- 0` and the side write (40_timing_automaton.md R101, R118). -/

@[simp] theorem beginRow_sr (h : RowHead) : (beginRow h s).sr = s.sr := rfl
@[simp] theorem beginRow_srcnt (h : RowHead) : (beginRow h s).srcnt = s.srcnt := rfl
@[simp] theorem beginRow_sym (h : RowHead) : (beginRow h s).sym = s.sym := rfl
@[simp] theorem beginRow_ctr (h : RowHead) : (beginRow h s).ctr = s.ctr := rfl
@[simp] theorem beginRow_dly (h : RowHead) : (beginRow h s).dly = s.dly := rfl
@[simp] theorem beginRow_pins (h : RowHead) : (beginRow h s).pins = s.pins := rfl
@[simp] theorem beginRow_side (h : RowHead) : (beginRow h s).side = if h.se then h.sv else s.side := rfl
@[simp] theorem beginRow_pc (h : RowHead) : (beginRow h s).pc = s.pc := rfl
@[simp] theorem beginRow_run (h : RowHead) : (beginRow h s).run = s.run := rfl
@[simp] theorem beginRow_haltReq (h : RowHead) : (beginRow h s).haltReq = s.haltReq := rfl
@[simp] theorem beginRow_stalled (h : RowHead) : (beginRow h s).stalled = false := rfl
@[simp] theorem beginRow_srun (h : RowHead) : (beginRow h s).srun = s.srun := rfl
@[simp] theorem beginRow_stopReq (h : RowHead) : (beginRow h s).stopReq = s.stopReq := rfl
@[simp] theorem beginRow_idx (h : RowHead) : (beginRow h s).idx = s.idx := rfl
@[simp] theorem beginRow_ct (h : RowHead) : (beginRow h s).ct = s.ct := rfl
@[simp] theorem beginRow_tp (h : RowHead) : (beginRow h s).tp = s.tp := rfl
@[simp] theorem beginRow_dirty (h : RowHead) : (beginRow h s).dirty = s.dirty := rfl
@[simp] theorem beginRow_frame (h : RowHead) : (beginRow h s).frame = s.frame := rfl
@[simp] theorem beginRow_frameValid (h : RowHead) : (beginRow h s).frameValid = s.frameValid := rfl
@[simp] theorem beginRow_q (h : RowHead) : (beginRow h s).q = s.q := rfl
@[simp] theorem beginRow_cfg (h : RowHead) : (beginRow h s).cfg = s.cfg := rfl
@[simp] theorem beginRow_reply (h : RowHead) : (beginRow h s).reply = s.reply := rfl
@[simp] theorem beginRow_turns (h : RowHead) : (beginRow h s).turns = s.turns := rfl
@[simp] theorem beginRow_turnNo (h : RowHead) : (beginRow h s).turnNo = s.turnNo := rfl

/-! ### endRow: `PC <- next; DLY <- row.cyc` (40_timing_automaton.md R101). -/

@[simp] theorem endRow_sr (h : RowHead) (next : BitVec 5) : (endRow h next s).sr = s.sr := rfl
@[simp] theorem endRow_srcnt (h : RowHead) (next : BitVec 5) : (endRow h next s).srcnt = s.srcnt := rfl
@[simp] theorem endRow_sym (h : RowHead) (next : BitVec 5) : (endRow h next s).sym = s.sym := rfl
@[simp] theorem endRow_ctr (h : RowHead) (next : BitVec 5) : (endRow h next s).ctr = s.ctr := rfl
@[simp] theorem endRow_dly (h : RowHead) (next : BitVec 5) : (endRow h next s).dly = h.cyc := rfl
@[simp] theorem endRow_pins (h : RowHead) (next : BitVec 5) : (endRow h next s).pins = s.pins := rfl
@[simp] theorem endRow_side (h : RowHead) (next : BitVec 5) : (endRow h next s).side = s.side := rfl
@[simp] theorem endRow_pc (h : RowHead) (next : BitVec 5) : (endRow h next s).pc = next := rfl
@[simp] theorem endRow_run (h : RowHead) (next : BitVec 5) : (endRow h next s).run = s.run := rfl
@[simp] theorem endRow_haltReq (h : RowHead) (next : BitVec 5) : (endRow h next s).haltReq = s.haltReq := rfl
@[simp] theorem endRow_stalled (h : RowHead) (next : BitVec 5) : (endRow h next s).stalled = s.stalled := rfl
@[simp] theorem endRow_srun (h : RowHead) (next : BitVec 5) : (endRow h next s).srun = s.srun := rfl
@[simp] theorem endRow_stopReq (h : RowHead) (next : BitVec 5) : (endRow h next s).stopReq = s.stopReq := rfl
@[simp] theorem endRow_idx (h : RowHead) (next : BitVec 5) : (endRow h next s).idx = s.idx := rfl
@[simp] theorem endRow_ct (h : RowHead) (next : BitVec 5) : (endRow h next s).ct = s.ct := rfl
@[simp] theorem endRow_tp (h : RowHead) (next : BitVec 5) : (endRow h next s).tp = s.tp := rfl
@[simp] theorem endRow_dirty (h : RowHead) (next : BitVec 5) : (endRow h next s).dirty = s.dirty := rfl
@[simp] theorem endRow_frame (h : RowHead) (next : BitVec 5) : (endRow h next s).frame = s.frame := rfl
@[simp] theorem endRow_frameValid (h : RowHead) (next : BitVec 5) : (endRow h next s).frameValid = s.frameValid := rfl
@[simp] theorem endRow_q (h : RowHead) (next : BitVec 5) : (endRow h next s).q = s.q := rfl
@[simp] theorem endRow_cfg (h : RowHead) (next : BitVec 5) : (endRow h next s).cfg = s.cfg := rfl
@[simp] theorem endRow_reply (h : RowHead) (next : BitVec 5) : (endRow h next s).reply = s.reply := rfl
@[simp] theorem endRow_turns (h : RowHead) (next : BitVec 5) : (endRow h next s).turns = s.turns := rfl
@[simp] theorem endRow_turnNo (h : RowHead) (next : BitVec 5) : (endRow h next s).turnNo = s.turnNo := rfl

/-! ### latchSymbol: `SYM <- v` (10_state.md R13). -/

@[simp] theorem latchSymbol_sr (v : BitVec 2) : (latchSymbol v s).sr = s.sr := rfl
@[simp] theorem latchSymbol_srcnt (v : BitVec 2) : (latchSymbol v s).srcnt = s.srcnt := rfl
@[simp] theorem latchSymbol_sym (v : BitVec 2) : (latchSymbol v s).sym = v := rfl
@[simp] theorem latchSymbol_ctr (v : BitVec 2) : (latchSymbol v s).ctr = s.ctr := rfl
@[simp] theorem latchSymbol_dly (v : BitVec 2) : (latchSymbol v s).dly = s.dly := rfl
@[simp] theorem latchSymbol_pins (v : BitVec 2) : (latchSymbol v s).pins = s.pins := rfl
@[simp] theorem latchSymbol_side (v : BitVec 2) : (latchSymbol v s).side = s.side := rfl
@[simp] theorem latchSymbol_pc (v : BitVec 2) : (latchSymbol v s).pc = s.pc := rfl
@[simp] theorem latchSymbol_run (v : BitVec 2) : (latchSymbol v s).run = s.run := rfl
@[simp] theorem latchSymbol_haltReq (v : BitVec 2) : (latchSymbol v s).haltReq = s.haltReq := rfl
@[simp] theorem latchSymbol_stalled (v : BitVec 2) : (latchSymbol v s).stalled = s.stalled := rfl
@[simp] theorem latchSymbol_srun (v : BitVec 2) : (latchSymbol v s).srun = s.srun := rfl
@[simp] theorem latchSymbol_stopReq (v : BitVec 2) : (latchSymbol v s).stopReq = s.stopReq := rfl
@[simp] theorem latchSymbol_idx (v : BitVec 2) : (latchSymbol v s).idx = s.idx := rfl
@[simp] theorem latchSymbol_ct (v : BitVec 2) : (latchSymbol v s).ct = s.ct := rfl
@[simp] theorem latchSymbol_tp (v : BitVec 2) : (latchSymbol v s).tp = s.tp := rfl
@[simp] theorem latchSymbol_dirty (v : BitVec 2) : (latchSymbol v s).dirty = s.dirty := rfl
@[simp] theorem latchSymbol_frame (v : BitVec 2) : (latchSymbol v s).frame = s.frame := rfl
@[simp] theorem latchSymbol_frameValid (v : BitVec 2) : (latchSymbol v s).frameValid = s.frameValid := rfl
@[simp] theorem latchSymbol_q (v : BitVec 2) : (latchSymbol v s).q = s.q := rfl
@[simp] theorem latchSymbol_cfg (v : BitVec 2) : (latchSymbol v s).cfg = s.cfg := rfl
@[simp] theorem latchSymbol_reply (v : BitVec 2) : (latchSymbol v s).reply = s.reply := rfl
@[simp] theorem latchSymbol_turns (v : BitVec 2) : (latchSymbol v s).turns = s.turns := rfl
@[simp] theorem latchSymbol_turnNo (v : BitVec 2) : (latchSymbol v s).turnNo = s.turnNo := rfl

/-! ### shiftEffect: The own effect of SHIFT (40_timing_automaton.md R112). -/

@[simp] theorem shiftEffect_sr (n : Nat) (d : Bool) : (shiftEffect n d s).sr = shiftOut s.cfg.wordWidth n s.sr := rfl
@[simp] theorem shiftEffect_srcnt (n : Nat) (d : Bool) : (shiftEffect n d s).srcnt = s.srcnt + n := rfl
@[simp] theorem shiftEffect_sym (n : Nat) (d : Bool) : (shiftEffect n d s).sym = topBits s.cfg.wordWidth n s.sr := rfl
@[simp] theorem shiftEffect_ctr (n : Nat) (d : Bool) : (shiftEffect n d s).ctr = s.ctr := rfl
@[simp] theorem shiftEffect_dly (n : Nat) (d : Bool) : (shiftEffect n d s).dly = s.dly := rfl
@[simp] theorem shiftEffect_pins (n : Nat) (d : Bool) : (shiftEffect n d s).pins = if d then pinLevel s.cfg.npins (topBits s.cfg.wordWidth n s.sr).toNat else s.pins := rfl
@[simp] theorem shiftEffect_side (n : Nat) (d : Bool) : (shiftEffect n d s).side = s.side := rfl
@[simp] theorem shiftEffect_pc (n : Nat) (d : Bool) : (shiftEffect n d s).pc = s.pc := rfl
@[simp] theorem shiftEffect_run (n : Nat) (d : Bool) : (shiftEffect n d s).run = s.run := rfl
@[simp] theorem shiftEffect_haltReq (n : Nat) (d : Bool) : (shiftEffect n d s).haltReq = s.haltReq := rfl
@[simp] theorem shiftEffect_stalled (n : Nat) (d : Bool) : (shiftEffect n d s).stalled = s.stalled := rfl
@[simp] theorem shiftEffect_srun (n : Nat) (d : Bool) : (shiftEffect n d s).srun = s.srun := rfl
@[simp] theorem shiftEffect_stopReq (n : Nat) (d : Bool) : (shiftEffect n d s).stopReq = s.stopReq := rfl
@[simp] theorem shiftEffect_idx (n : Nat) (d : Bool) : (shiftEffect n d s).idx = s.idx := rfl
@[simp] theorem shiftEffect_ct (n : Nat) (d : Bool) : (shiftEffect n d s).ct = s.ct := rfl
@[simp] theorem shiftEffect_tp (n : Nat) (d : Bool) : (shiftEffect n d s).tp = s.tp := rfl
@[simp] theorem shiftEffect_dirty (n : Nat) (d : Bool) : (shiftEffect n d s).dirty = s.dirty := rfl
@[simp] theorem shiftEffect_frame (n : Nat) (d : Bool) : (shiftEffect n d s).frame = s.frame := rfl
@[simp] theorem shiftEffect_frameValid (n : Nat) (d : Bool) : (shiftEffect n d s).frameValid = s.frameValid := rfl
@[simp] theorem shiftEffect_q (n : Nat) (d : Bool) : (shiftEffect n d s).q = s.q := rfl
@[simp] theorem shiftEffect_cfg (n : Nat) (d : Bool) : (shiftEffect n d s).cfg = s.cfg := rfl
@[simp] theorem shiftEffect_reply (n : Nat) (d : Bool) : (shiftEffect n d s).reply = s.reply := rfl
@[simp] theorem shiftEffect_turns (n : Nat) (d : Bool) : (shiftEffect n d s).turns = s.turns := rfl
@[simp] theorem shiftEffect_turnNo (n : Nat) (d : Bool) : (shiftEffect n d s).turnNo = s.turnNo := rfl

/-! ### markDirty: `DIRTY <- 1` (10_state.md R20). -/

@[simp] theorem markDirty_sr : (markDirty s).sr = s.sr := rfl
@[simp] theorem markDirty_srcnt : (markDirty s).srcnt = s.srcnt := rfl
@[simp] theorem markDirty_sym : (markDirty s).sym = s.sym := rfl
@[simp] theorem markDirty_ctr : (markDirty s).ctr = s.ctr := rfl
@[simp] theorem markDirty_dly : (markDirty s).dly = s.dly := rfl
@[simp] theorem markDirty_pins : (markDirty s).pins = s.pins := rfl
@[simp] theorem markDirty_side : (markDirty s).side = s.side := rfl
@[simp] theorem markDirty_pc : (markDirty s).pc = s.pc := rfl
@[simp] theorem markDirty_run : (markDirty s).run = s.run := rfl
@[simp] theorem markDirty_haltReq : (markDirty s).haltReq = s.haltReq := rfl
@[simp] theorem markDirty_stalled : (markDirty s).stalled = s.stalled := rfl
@[simp] theorem markDirty_srun : (markDirty s).srun = s.srun := rfl
@[simp] theorem markDirty_stopReq : (markDirty s).stopReq = s.stopReq := rfl
@[simp] theorem markDirty_idx : (markDirty s).idx = s.idx := rfl
@[simp] theorem markDirty_ct : (markDirty s).ct = s.ct := rfl
@[simp] theorem markDirty_tp : (markDirty s).tp = s.tp := rfl
@[simp] theorem markDirty_dirty : (markDirty s).dirty = true := rfl
@[simp] theorem markDirty_frame : (markDirty s).frame = s.frame := rfl
@[simp] theorem markDirty_frameValid : (markDirty s).frameValid = s.frameValid := rfl
@[simp] theorem markDirty_q : (markDirty s).q = s.q := rfl
@[simp] theorem markDirty_cfg : (markDirty s).cfg = s.cfg := rfl
@[simp] theorem markDirty_reply : (markDirty s).reply = s.reply := rfl
@[simp] theorem markDirty_turns : (markDirty s).turns = s.turns := rfl
@[simp] theorem markDirty_turnNo : (markDirty s).turnNo = s.turnNo := rfl

/-! ### commandOk: The result `OK` (60_exceptions.md R200). -/

@[simp] theorem commandOk_sr : (commandOk s).sr = s.sr := rfl
@[simp] theorem commandOk_srcnt : (commandOk s).srcnt = s.srcnt := rfl
@[simp] theorem commandOk_sym : (commandOk s).sym = s.sym := rfl
@[simp] theorem commandOk_ctr : (commandOk s).ctr = s.ctr := rfl
@[simp] theorem commandOk_dly : (commandOk s).dly = s.dly := rfl
@[simp] theorem commandOk_pins : (commandOk s).pins = s.pins := rfl
@[simp] theorem commandOk_side : (commandOk s).side = s.side := rfl
@[simp] theorem commandOk_pc : (commandOk s).pc = s.pc := rfl
@[simp] theorem commandOk_run : (commandOk s).run = s.run := rfl
@[simp] theorem commandOk_haltReq : (commandOk s).haltReq = s.haltReq := rfl
@[simp] theorem commandOk_stalled : (commandOk s).stalled = s.stalled := rfl
@[simp] theorem commandOk_srun : (commandOk s).srun = s.srun := rfl
@[simp] theorem commandOk_stopReq : (commandOk s).stopReq = s.stopReq := rfl
@[simp] theorem commandOk_idx : (commandOk s).idx = s.idx := rfl
@[simp] theorem commandOk_ct : (commandOk s).ct = s.ct := rfl
@[simp] theorem commandOk_tp : (commandOk s).tp = s.tp := rfl
@[simp] theorem commandOk_dirty : (commandOk s).dirty = s.dirty := rfl
@[simp] theorem commandOk_frame : (commandOk s).frame = s.frame := rfl
@[simp] theorem commandOk_frameValid : (commandOk s).frameValid = s.frameValid := rfl
@[simp] theorem commandOk_q : (commandOk s).q = s.q := rfl
@[simp] theorem commandOk_cfg : (commandOk s).cfg = s.cfg := rfl
@[simp] theorem commandOk_reply : (commandOk s).reply = .ok := rfl
@[simp] theorem commandOk_turns : (commandOk s).turns = s.turns := rfl
@[simp] theorem commandOk_turnNo : (commandOk s).turnNo = s.turnNo := rfl

/-! ### raiseConfigError: `raise ConfigError(code)` changes the reply only (60_exceptions.md R200). -/

@[simp] theorem raiseConfigError_sr (code : ConfigErrorCode) (w : CmdWord) : (raiseConfigError code w s).sr = s.sr := rfl
@[simp] theorem raiseConfigError_srcnt (code : ConfigErrorCode) (w : CmdWord) : (raiseConfigError code w s).srcnt = s.srcnt := rfl
@[simp] theorem raiseConfigError_sym (code : ConfigErrorCode) (w : CmdWord) : (raiseConfigError code w s).sym = s.sym := rfl
@[simp] theorem raiseConfigError_ctr (code : ConfigErrorCode) (w : CmdWord) : (raiseConfigError code w s).ctr = s.ctr := rfl
@[simp] theorem raiseConfigError_dly (code : ConfigErrorCode) (w : CmdWord) : (raiseConfigError code w s).dly = s.dly := rfl
@[simp] theorem raiseConfigError_pins (code : ConfigErrorCode) (w : CmdWord) : (raiseConfigError code w s).pins = s.pins := rfl
@[simp] theorem raiseConfigError_side (code : ConfigErrorCode) (w : CmdWord) : (raiseConfigError code w s).side = s.side := rfl
@[simp] theorem raiseConfigError_pc (code : ConfigErrorCode) (w : CmdWord) : (raiseConfigError code w s).pc = s.pc := rfl
@[simp] theorem raiseConfigError_run (code : ConfigErrorCode) (w : CmdWord) : (raiseConfigError code w s).run = s.run := rfl
@[simp] theorem raiseConfigError_haltReq (code : ConfigErrorCode) (w : CmdWord) : (raiseConfigError code w s).haltReq = s.haltReq := rfl
@[simp] theorem raiseConfigError_stalled (code : ConfigErrorCode) (w : CmdWord) : (raiseConfigError code w s).stalled = s.stalled := rfl
@[simp] theorem raiseConfigError_srun (code : ConfigErrorCode) (w : CmdWord) : (raiseConfigError code w s).srun = s.srun := rfl
@[simp] theorem raiseConfigError_stopReq (code : ConfigErrorCode) (w : CmdWord) : (raiseConfigError code w s).stopReq = s.stopReq := rfl
@[simp] theorem raiseConfigError_idx (code : ConfigErrorCode) (w : CmdWord) : (raiseConfigError code w s).idx = s.idx := rfl
@[simp] theorem raiseConfigError_ct (code : ConfigErrorCode) (w : CmdWord) : (raiseConfigError code w s).ct = s.ct := rfl
@[simp] theorem raiseConfigError_tp (code : ConfigErrorCode) (w : CmdWord) : (raiseConfigError code w s).tp = s.tp := rfl
@[simp] theorem raiseConfigError_dirty (code : ConfigErrorCode) (w : CmdWord) : (raiseConfigError code w s).dirty = s.dirty := rfl
@[simp] theorem raiseConfigError_frame (code : ConfigErrorCode) (w : CmdWord) : (raiseConfigError code w s).frame = s.frame := rfl
@[simp] theorem raiseConfigError_frameValid (code : ConfigErrorCode) (w : CmdWord) : (raiseConfigError code w s).frameValid = s.frameValid := rfl
@[simp] theorem raiseConfigError_q (code : ConfigErrorCode) (w : CmdWord) : (raiseConfigError code w s).q = s.q := rfl
@[simp] theorem raiseConfigError_cfg (code : ConfigErrorCode) (w : CmdWord) : (raiseConfigError code w s).cfg = s.cfg := rfl
@[simp] theorem raiseConfigError_reply (code : ConfigErrorCode) (w : CmdWord) : (raiseConfigError code w s).reply = .configError code w := rfl
@[simp] theorem raiseConfigError_turns (code : ConfigErrorCode) (w : CmdWord) : (raiseConfigError code w s).turns = s.turns := rfl
@[simp] theorem raiseConfigError_turnNo (code : ConfigErrorCode) (w : CmdWord) : (raiseConfigError code w s).turnNo = s.turnNo := rfl

/-! ### replyWith: A function's result (42_frame_encoder.md). -/

@[simp] theorem replyWith_sr (r : Reply) : (replyWith r s).sr = s.sr := rfl
@[simp] theorem replyWith_srcnt (r : Reply) : (replyWith r s).srcnt = s.srcnt := rfl
@[simp] theorem replyWith_sym (r : Reply) : (replyWith r s).sym = s.sym := rfl
@[simp] theorem replyWith_ctr (r : Reply) : (replyWith r s).ctr = s.ctr := rfl
@[simp] theorem replyWith_dly (r : Reply) : (replyWith r s).dly = s.dly := rfl
@[simp] theorem replyWith_pins (r : Reply) : (replyWith r s).pins = s.pins := rfl
@[simp] theorem replyWith_side (r : Reply) : (replyWith r s).side = s.side := rfl
@[simp] theorem replyWith_pc (r : Reply) : (replyWith r s).pc = s.pc := rfl
@[simp] theorem replyWith_run (r : Reply) : (replyWith r s).run = s.run := rfl
@[simp] theorem replyWith_haltReq (r : Reply) : (replyWith r s).haltReq = s.haltReq := rfl
@[simp] theorem replyWith_stalled (r : Reply) : (replyWith r s).stalled = s.stalled := rfl
@[simp] theorem replyWith_srun (r : Reply) : (replyWith r s).srun = s.srun := rfl
@[simp] theorem replyWith_stopReq (r : Reply) : (replyWith r s).stopReq = s.stopReq := rfl
@[simp] theorem replyWith_idx (r : Reply) : (replyWith r s).idx = s.idx := rfl
@[simp] theorem replyWith_ct (r : Reply) : (replyWith r s).ct = s.ct := rfl
@[simp] theorem replyWith_tp (r : Reply) : (replyWith r s).tp = s.tp := rfl
@[simp] theorem replyWith_dirty (r : Reply) : (replyWith r s).dirty = s.dirty := rfl
@[simp] theorem replyWith_frame (r : Reply) : (replyWith r s).frame = s.frame := rfl
@[simp] theorem replyWith_frameValid (r : Reply) : (replyWith r s).frameValid = s.frameValid := rfl
@[simp] theorem replyWith_q (r : Reply) : (replyWith r s).q = s.q := rfl
@[simp] theorem replyWith_cfg (r : Reply) : (replyWith r s).cfg = s.cfg := rfl
@[simp] theorem replyWith_reply (r : Reply) : (replyWith r s).reply = r := rfl
@[simp] theorem replyWith_turns (r : Reply) : (replyWith r s).turns = s.turns := rfl
@[simp] theorem replyWith_turnNo (r : Reply) : (replyWith r s).turnNo = s.turnNo := rfl

/-! ### queuePush: `QueuePush(w)` (20_memory.md R55). -/

@[simp] theorem queuePush_sr (w : Word) : (queuePush w s).sr = s.sr := rfl
@[simp] theorem queuePush_srcnt (w : Word) : (queuePush w s).srcnt = s.srcnt := rfl
@[simp] theorem queuePush_sym (w : Word) : (queuePush w s).sym = s.sym := rfl
@[simp] theorem queuePush_ctr (w : Word) : (queuePush w s).ctr = s.ctr := rfl
@[simp] theorem queuePush_dly (w : Word) : (queuePush w s).dly = s.dly := rfl
@[simp] theorem queuePush_pins (w : Word) : (queuePush w s).pins = s.pins := rfl
@[simp] theorem queuePush_side (w : Word) : (queuePush w s).side = s.side := rfl
@[simp] theorem queuePush_pc (w : Word) : (queuePush w s).pc = s.pc := rfl
@[simp] theorem queuePush_run (w : Word) : (queuePush w s).run = s.run := rfl
@[simp] theorem queuePush_haltReq (w : Word) : (queuePush w s).haltReq = s.haltReq := rfl
@[simp] theorem queuePush_stalled (w : Word) : (queuePush w s).stalled = s.stalled := rfl
@[simp] theorem queuePush_srun (w : Word) : (queuePush w s).srun = s.srun := rfl
@[simp] theorem queuePush_stopReq (w : Word) : (queuePush w s).stopReq = s.stopReq := rfl
@[simp] theorem queuePush_idx (w : Word) : (queuePush w s).idx = s.idx := rfl
@[simp] theorem queuePush_ct (w : Word) : (queuePush w s).ct = s.ct := rfl
@[simp] theorem queuePush_tp (w : Word) : (queuePush w s).tp = s.tp := rfl
@[simp] theorem queuePush_dirty (w : Word) : (queuePush w s).dirty = s.dirty := rfl
@[simp] theorem queuePush_frame (w : Word) : (queuePush w s).frame = s.frame := rfl
@[simp] theorem queuePush_frameValid (w : Word) : (queuePush w s).frameValid = s.frameValid := rfl
@[simp] theorem queuePush_q (w : Word) : (queuePush w s).q = s.q ++ [w] := rfl
@[simp] theorem queuePush_cfg (w : Word) : (queuePush w s).cfg = s.cfg := rfl
@[simp] theorem queuePush_reply (w : Word) : (queuePush w s).reply = s.reply := rfl
@[simp] theorem queuePush_turns (w : Word) : (queuePush w s).turns = s.turns := rfl
@[simp] theorem queuePush_turnNo (w : Word) : (queuePush w s).turnNo = s.turnNo := rfl

/-! ### clearAutomaton: What START and the halt clear alike. -/

@[simp] theorem clearAutomaton_sr : (clearAutomaton s).sr = s.sr := rfl
@[simp] theorem clearAutomaton_srcnt : (clearAutomaton s).srcnt = s.cfg.wordWidth := rfl
@[simp] theorem clearAutomaton_sym : (clearAutomaton s).sym = 0#2 := rfl
@[simp] theorem clearAutomaton_ctr : (clearAutomaton s).ctr = 0#16 := rfl
@[simp] theorem clearAutomaton_dly : (clearAutomaton s).dly = 0#11 := rfl
@[simp] theorem clearAutomaton_pins : (clearAutomaton s).pins = 0#2 := rfl
@[simp] theorem clearAutomaton_side : (clearAutomaton s).side = false := rfl
@[simp] theorem clearAutomaton_pc : (clearAutomaton s).pc = 0#5 := rfl
@[simp] theorem clearAutomaton_run : (clearAutomaton s).run = s.run := rfl
@[simp] theorem clearAutomaton_haltReq : (clearAutomaton s).haltReq = false := rfl
@[simp] theorem clearAutomaton_stalled : (clearAutomaton s).stalled = false := rfl
@[simp] theorem clearAutomaton_srun : (clearAutomaton s).srun = s.srun := rfl
@[simp] theorem clearAutomaton_stopReq : (clearAutomaton s).stopReq = s.stopReq := rfl
@[simp] theorem clearAutomaton_idx : (clearAutomaton s).idx = s.idx := rfl
@[simp] theorem clearAutomaton_ct : (clearAutomaton s).ct = s.ct := rfl
@[simp] theorem clearAutomaton_tp : (clearAutomaton s).tp = s.tp := rfl
@[simp] theorem clearAutomaton_dirty : (clearAutomaton s).dirty = s.dirty := rfl
@[simp] theorem clearAutomaton_frame : (clearAutomaton s).frame = s.frame := rfl
@[simp] theorem clearAutomaton_frameValid : (clearAutomaton s).frameValid = s.frameValid := rfl
@[simp] theorem clearAutomaton_q : (clearAutomaton s).q = [] := rfl
@[simp] theorem clearAutomaton_cfg : (clearAutomaton s).cfg = s.cfg := rfl
@[simp] theorem clearAutomaton_reply : (clearAutomaton s).reply = s.reply := rfl
@[simp] theorem clearAutomaton_turns : (clearAutomaton s).turns = s.turns := rfl
@[simp] theorem clearAutomaton_turnNo : (clearAutomaton s).turnNo = s.turnNo := rfl

/-! ### halt: `Halt()` (40_timing_automaton.md R104). -/

@[simp] theorem halt_sr : (halt s).sr = s.sr := rfl
@[simp] theorem halt_srcnt : (halt s).srcnt = s.cfg.wordWidth := rfl
@[simp] theorem halt_sym : (halt s).sym = 0#2 := rfl
@[simp] theorem halt_ctr : (halt s).ctr = 0#16 := rfl
@[simp] theorem halt_dly : (halt s).dly = 0#11 := rfl
@[simp] theorem halt_pins : (halt s).pins = 0#2 := rfl
@[simp] theorem halt_side : (halt s).side = false := rfl
@[simp] theorem halt_pc : (halt s).pc = 0#5 := rfl
@[simp] theorem halt_run : (halt s).run = false := rfl
@[simp] theorem halt_haltReq : (halt s).haltReq = false := rfl
@[simp] theorem halt_stalled : (halt s).stalled = false := rfl
@[simp] theorem halt_srun : (halt s).srun = s.srun := rfl
@[simp] theorem halt_stopReq : (halt s).stopReq = s.stopReq := rfl
@[simp] theorem halt_idx : (halt s).idx = s.idx := rfl
@[simp] theorem halt_ct : (halt s).ct = s.ct := rfl
@[simp] theorem halt_tp : (halt s).tp = s.tp := rfl
@[simp] theorem halt_dirty : (halt s).dirty = s.dirty := rfl
@[simp] theorem halt_frame : (halt s).frame = s.frame := rfl
@[simp] theorem halt_frameValid : (halt s).frameValid = s.frameValid := rfl
@[simp] theorem halt_q : (halt s).q = [] := rfl
@[simp] theorem halt_cfg : (halt s).cfg = s.cfg := rfl
@[simp] theorem halt_reply : (halt s).reply = s.reply := rfl
@[simp] theorem halt_turns : (halt s).turns = s.turns := rfl
@[simp] theorem halt_turnNo : (halt s).turnNo = s.turnNo := rfl

/-! ### startRun: START (44_streamer_commands.md R182). -/

@[simp] theorem startRun_sr : (startRun s).sr = s.sr := rfl
@[simp] theorem startRun_srcnt : (startRun s).srcnt = s.cfg.wordWidth := rfl
@[simp] theorem startRun_sym : (startRun s).sym = 0#2 := rfl
@[simp] theorem startRun_ctr : (startRun s).ctr = 0#16 := rfl
@[simp] theorem startRun_dly : (startRun s).dly = 0#11 := rfl
@[simp] theorem startRun_pins : (startRun s).pins = 0#2 := rfl
@[simp] theorem startRun_side : (startRun s).side = false := rfl
@[simp] theorem startRun_pc : (startRun s).pc = 0#5 := rfl
@[simp] theorem startRun_run : (startRun s).run = true := rfl
@[simp] theorem startRun_haltReq : (startRun s).haltReq = false := rfl
@[simp] theorem startRun_stalled : (startRun s).stalled = false := rfl
@[simp] theorem startRun_srun : (startRun s).srun = true := rfl
@[simp] theorem startRun_stopReq : (startRun s).stopReq = false := rfl
@[simp] theorem startRun_idx : (startRun s).idx = 0 := rfl
@[simp] theorem startRun_ct : (startRun s).ct = s.ct := rfl
@[simp] theorem startRun_tp : (startRun s).tp = s.tp := rfl
@[simp] theorem startRun_dirty : (startRun s).dirty = s.dirty := rfl
@[simp] theorem startRun_frame : (startRun s).frame = s.frame := rfl
@[simp] theorem startRun_frameValid : (startRun s).frameValid = s.frameValid := rfl
@[simp] theorem startRun_q : (startRun s).q = [] := rfl
@[simp] theorem startRun_cfg : (startRun s).cfg = s.cfg := rfl
@[simp] theorem startRun_reply : (startRun s).reply = s.reply := rfl
@[simp] theorem startRun_turns : (startRun s).turns = s.turns := rfl
@[simp] theorem startRun_turnNo : (startRun s).turnNo = s.turnNo := rfl

/-! ### rebuildFrame: `Rebuild()` (44_streamer_commands.md R187). -/

@[simp] theorem rebuildFrame_sr : (rebuildFrame s).sr = s.sr := rfl
@[simp] theorem rebuildFrame_srcnt : (rebuildFrame s).srcnt = s.srcnt := rfl
@[simp] theorem rebuildFrame_sym : (rebuildFrame s).sym = s.sym := rfl
@[simp] theorem rebuildFrame_ctr : (rebuildFrame s).ctr = s.ctr := rfl
@[simp] theorem rebuildFrame_dly : (rebuildFrame s).dly = s.dly := rfl
@[simp] theorem rebuildFrame_pins : (rebuildFrame s).pins = s.pins := rfl
@[simp] theorem rebuildFrame_side : (rebuildFrame s).side = s.side := rfl
@[simp] theorem rebuildFrame_pc : (rebuildFrame s).pc = s.pc := rfl
@[simp] theorem rebuildFrame_run : (rebuildFrame s).run = s.run := rfl
@[simp] theorem rebuildFrame_haltReq : (rebuildFrame s).haltReq = s.haltReq := rfl
@[simp] theorem rebuildFrame_stalled : (rebuildFrame s).stalled = s.stalled := rfl
@[simp] theorem rebuildFrame_srun : (rebuildFrame s).srun = s.srun := rfl
@[simp] theorem rebuildFrame_stopReq : (rebuildFrame s).stopReq = s.stopReq := rfl
@[simp] theorem rebuildFrame_idx : (rebuildFrame s).idx = s.idx := rfl
@[simp] theorem rebuildFrame_ct : (rebuildFrame s).ct = s.ct := rfl
@[simp] theorem rebuildFrame_tp : (rebuildFrame s).tp = s.tp := rfl
@[simp] theorem rebuildFrame_dirty : (rebuildFrame s).dirty = false := rfl
@[simp] theorem rebuildFrame_frame : (rebuildFrame s).frame = frameImage s.cfg (Memory.snapshot s.ct) s.tp := rfl
@[simp] theorem rebuildFrame_frameValid : (rebuildFrame s).frameValid = true := rfl
@[simp] theorem rebuildFrame_q : (rebuildFrame s).q = s.q := rfl
@[simp] theorem rebuildFrame_cfg : (rebuildFrame s).cfg = s.cfg := rfl
@[simp] theorem rebuildFrame_reply : (rebuildFrame s).reply = s.reply := rfl
@[simp] theorem rebuildFrame_turns : (rebuildFrame s).turns = s.turns := rfl
@[simp] theorem rebuildFrame_turnNo : (rebuildFrame s).turnNo = s.turnNo := rfl

/-! ### advanceIdx: `IDX <- (IDX + 1) mod NWORDS` (44_streamer_commands.md R188). -/

@[simp] theorem advanceIdx_sr : (advanceIdx s).sr = s.sr := rfl
@[simp] theorem advanceIdx_srcnt : (advanceIdx s).srcnt = s.srcnt := rfl
@[simp] theorem advanceIdx_sym : (advanceIdx s).sym = s.sym := rfl
@[simp] theorem advanceIdx_ctr : (advanceIdx s).ctr = s.ctr := rfl
@[simp] theorem advanceIdx_dly : (advanceIdx s).dly = s.dly := rfl
@[simp] theorem advanceIdx_pins : (advanceIdx s).pins = s.pins := rfl
@[simp] theorem advanceIdx_side : (advanceIdx s).side = s.side := rfl
@[simp] theorem advanceIdx_pc : (advanceIdx s).pc = s.pc := rfl
@[simp] theorem advanceIdx_run : (advanceIdx s).run = s.run := rfl
@[simp] theorem advanceIdx_haltReq : (advanceIdx s).haltReq = s.haltReq := rfl
@[simp] theorem advanceIdx_stalled : (advanceIdx s).stalled = s.stalled := rfl
@[simp] theorem advanceIdx_srun : (advanceIdx s).srun = s.srun := rfl
@[simp] theorem advanceIdx_stopReq : (advanceIdx s).stopReq = s.stopReq := rfl
@[simp] theorem advanceIdx_idx : (advanceIdx s).idx = (s.idx + 1) % nwords s.cfg := rfl
@[simp] theorem advanceIdx_ct : (advanceIdx s).ct = s.ct := rfl
@[simp] theorem advanceIdx_tp : (advanceIdx s).tp = s.tp := rfl
@[simp] theorem advanceIdx_dirty : (advanceIdx s).dirty = s.dirty := rfl
@[simp] theorem advanceIdx_frame : (advanceIdx s).frame = s.frame := rfl
@[simp] theorem advanceIdx_frameValid : (advanceIdx s).frameValid = s.frameValid := rfl
@[simp] theorem advanceIdx_q : (advanceIdx s).q = s.q := rfl
@[simp] theorem advanceIdx_cfg : (advanceIdx s).cfg = s.cfg := rfl
@[simp] theorem advanceIdx_reply : (advanceIdx s).reply = s.reply := rfl
@[simp] theorem advanceIdx_turns : (advanceIdx s).turns = s.turns := rfl
@[simp] theorem advanceIdx_turnNo : (advanceIdx s).turnNo = s.turnNo := rfl

/-! ### streamerStop: `StreamerStop()` (44_streamer_commands.md R189). -/

@[simp] theorem streamerStop_sr : (streamerStop s).sr = s.sr := rfl
@[simp] theorem streamerStop_srcnt : (streamerStop s).srcnt = s.srcnt := rfl
@[simp] theorem streamerStop_sym : (streamerStop s).sym = s.sym := rfl
@[simp] theorem streamerStop_ctr : (streamerStop s).ctr = s.ctr := rfl
@[simp] theorem streamerStop_dly : (streamerStop s).dly = s.dly := rfl
@[simp] theorem streamerStop_pins : (streamerStop s).pins = s.pins := rfl
@[simp] theorem streamerStop_side : (streamerStop s).side = s.side := rfl
@[simp] theorem streamerStop_pc : (streamerStop s).pc = s.pc := rfl
@[simp] theorem streamerStop_run : (streamerStop s).run = s.run := rfl
@[simp] theorem streamerStop_haltReq : (streamerStop s).haltReq = true := rfl
@[simp] theorem streamerStop_stalled : (streamerStop s).stalled = s.stalled := rfl
@[simp] theorem streamerStop_srun : (streamerStop s).srun = false := rfl
@[simp] theorem streamerStop_stopReq : (streamerStop s).stopReq = false := rfl
@[simp] theorem streamerStop_idx : (streamerStop s).idx = s.idx := rfl
@[simp] theorem streamerStop_ct : (streamerStop s).ct = s.ct := rfl
@[simp] theorem streamerStop_tp : (streamerStop s).tp = s.tp := rfl
@[simp] theorem streamerStop_dirty : (streamerStop s).dirty = s.dirty := rfl
@[simp] theorem streamerStop_frame : (streamerStop s).frame = s.frame := rfl
@[simp] theorem streamerStop_frameValid : (streamerStop s).frameValid = s.frameValid := rfl
@[simp] theorem streamerStop_q : (streamerStop s).q = s.q := rfl
@[simp] theorem streamerStop_cfg : (streamerStop s).cfg = s.cfg := rfl
@[simp] theorem streamerStop_reply : (streamerStop s).reply = s.reply := rfl
@[simp] theorem streamerStop_turns : (streamerStop s).turns = s.turns := rfl
@[simp] theorem streamerStop_turnNo : (streamerStop s).turnNo = s.turnNo := rfl

/-! ### placeCfg: A load of `CFG` (00_scope.md R5). -/

@[simp] theorem placeCfg_sr (c : Cfg) : (placeCfg c s).sr = s.sr := rfl
@[simp] theorem placeCfg_srcnt (c : Cfg) : (placeCfg c s).srcnt = c.wordWidth := rfl
@[simp] theorem placeCfg_sym (c : Cfg) : (placeCfg c s).sym = s.sym := rfl
@[simp] theorem placeCfg_ctr (c : Cfg) : (placeCfg c s).ctr = s.ctr := rfl
@[simp] theorem placeCfg_dly (c : Cfg) : (placeCfg c s).dly = s.dly := rfl
@[simp] theorem placeCfg_pins (c : Cfg) : (placeCfg c s).pins = s.pins := rfl
@[simp] theorem placeCfg_side (c : Cfg) : (placeCfg c s).side = s.side := rfl
@[simp] theorem placeCfg_pc (c : Cfg) : (placeCfg c s).pc = s.pc := rfl
@[simp] theorem placeCfg_run (c : Cfg) : (placeCfg c s).run = s.run := rfl
@[simp] theorem placeCfg_haltReq (c : Cfg) : (placeCfg c s).haltReq = s.haltReq := rfl
@[simp] theorem placeCfg_stalled (c : Cfg) : (placeCfg c s).stalled = s.stalled := rfl
@[simp] theorem placeCfg_srun (c : Cfg) : (placeCfg c s).srun = s.srun := rfl
@[simp] theorem placeCfg_stopReq (c : Cfg) : (placeCfg c s).stopReq = s.stopReq := rfl
@[simp] theorem placeCfg_idx (c : Cfg) : (placeCfg c s).idx = s.idx := rfl
@[simp] theorem placeCfg_ct (c : Cfg) : (placeCfg c s).ct = s.ct := rfl
@[simp] theorem placeCfg_tp (c : Cfg) : (placeCfg c s).tp = s.tp := rfl
@[simp] theorem placeCfg_dirty (c : Cfg) : (placeCfg c s).dirty = s.dirty := rfl
@[simp] theorem placeCfg_frame (c : Cfg) : (placeCfg c s).frame = if s.frameValid then s.frame else List.replicate (nwords c) 0 := rfl
@[simp] theorem placeCfg_frameValid (c : Cfg) : (placeCfg c s).frameValid = s.frameValid := rfl
@[simp] theorem placeCfg_q (c : Cfg) : (placeCfg c s).q = s.q := rfl
@[simp] theorem placeCfg_cfg (c : Cfg) : (placeCfg c s).cfg = c := rfl
@[simp] theorem placeCfg_reply (c : Cfg) : (placeCfg c s).reply = s.reply := rfl
@[simp] theorem placeCfg_turns (c : Cfg) : (placeCfg c s).turns = s.turns := rfl
@[simp] theorem placeCfg_turnNo (c : Cfg) : (placeCfg c s).turnNo = s.turnNo := rfl

end Sys2Proof.Machine
end

