-- ==== Sys2Proof/Laws/Ops.lean ====
section
/-! SUPPORT. What each shared operation can do, said once: the inversion lemmas later proofs cite instead of unfolding. -/

namespace Sys2Proof.Machine

/-! ### The schedule -/

theorem step_eq_runTurn (s : State) : step s = runTurn (nextTurn s) (takeTurn s) := rfl

theorem nextTurn_cons (s : State) (t : Turn) (rest : List Turn) (h : s.turns = t :: rest) : nextTurn s = t := by
  simp [nextTurn, h]

theorem takeTurn_cons (s : State) (t : Turn) (rest : List Turn) (h : s.turns = t :: rest) :
    takeTurn s = { s with turns := rest } := by
  simp [takeTurn, h]

theorem step_of_turns_cons (s : State) (t : Turn) (rest : List Turn) (h : s.turns = t :: rest) :
    step s = runTurn t { s with turns := rest } := by
  rw [step_eq_runTurn, nextTurn_cons s t rest h, takeTurn_cons s t rest h]

/-- Taking a turn changes nothing but the schedule. -/
theorem takeTurn_eq (s : State) :
    takeTurn s = { s with turns := (takeTurn s).turns, turnNo := (takeTurn s).turnNo } := by
  unfold takeTurn; split <;> rfl

@[simp] theorem takeTurn_sr (s : State) : (takeTurn s).sr = s.sr := by rw [takeTurn_eq]
@[simp] theorem takeTurn_srcnt (s : State) : (takeTurn s).srcnt = s.srcnt := by rw [takeTurn_eq]
@[simp] theorem takeTurn_sym (s : State) : (takeTurn s).sym = s.sym := by rw [takeTurn_eq]
@[simp] theorem takeTurn_ctr (s : State) : (takeTurn s).ctr = s.ctr := by rw [takeTurn_eq]
@[simp] theorem takeTurn_dly (s : State) : (takeTurn s).dly = s.dly := by rw [takeTurn_eq]
@[simp] theorem takeTurn_pins (s : State) : (takeTurn s).pins = s.pins := by rw [takeTurn_eq]
@[simp] theorem takeTurn_side (s : State) : (takeTurn s).side = s.side := by rw [takeTurn_eq]
@[simp] theorem takeTurn_pc (s : State) : (takeTurn s).pc = s.pc := by rw [takeTurn_eq]
@[simp] theorem takeTurn_run (s : State) : (takeTurn s).run = s.run := by rw [takeTurn_eq]
@[simp] theorem takeTurn_haltReq (s : State) : (takeTurn s).haltReq = s.haltReq := by rw [takeTurn_eq]
@[simp] theorem takeTurn_stalled (s : State) : (takeTurn s).stalled = s.stalled := by rw [takeTurn_eq]
@[simp] theorem takeTurn_srun (s : State) : (takeTurn s).srun = s.srun := by rw [takeTurn_eq]
@[simp] theorem takeTurn_stopReq (s : State) : (takeTurn s).stopReq = s.stopReq := by rw [takeTurn_eq]
@[simp] theorem takeTurn_idx (s : State) : (takeTurn s).idx = s.idx := by rw [takeTurn_eq]
@[simp] theorem takeTurn_ct (s : State) : (takeTurn s).ct = s.ct := by rw [takeTurn_eq]
@[simp] theorem takeTurn_tp (s : State) : (takeTurn s).tp = s.tp := by rw [takeTurn_eq]
@[simp] theorem takeTurn_dirty (s : State) : (takeTurn s).dirty = s.dirty := by rw [takeTurn_eq]
@[simp] theorem takeTurn_frame (s : State) : (takeTurn s).frame = s.frame := by rw [takeTurn_eq]
@[simp] theorem takeTurn_frameValid (s : State) : (takeTurn s).frameValid = s.frameValid := by rw [takeTurn_eq]
@[simp] theorem takeTurn_q (s : State) : (takeTurn s).q = s.q := by rw [takeTurn_eq]
@[simp] theorem takeTurn_cfg (s : State) : (takeTurn s).cfg = s.cfg := by rw [takeTurn_eq]
@[simp] theorem takeTurn_reply (s : State) : (takeTurn s).reply = s.reply := by rw [takeTurn_eq]

/-! ### Rows -/

/-- The autopull leaves the state, or moves the head of the queue into an empty shift register; or there is nothing to
pull (40_timing_automaton.md R102). -/
theorem autopull_cases (s : State) :
    (s.srcnt ≠ s.cfg.wordWidth ∧ autopull s = some s)
    ∨ (s.srcnt = s.cfg.wordWidth ∧ s.q = [] ∧ autopull s = none)
    ∨ (s.srcnt = s.cfg.wordWidth ∧ ∃ w rest, s.q = w :: rest
        ∧ autopull s = some { s with sr := w, srcnt := 0, q := rest }) := by
  by_cases h : s.srcnt = s.cfg.wordWidth
  · cases hq : s.q with
    | nil => exact .inr (.inl ⟨h, rfl, by simp [autopull, h, hq]⟩)
    | cons w rest => exact .inr (.inr ⟨h, w, rest, rfl, by simp [autopull, h, hq]⟩)
  · exact .inl ⟨h, by simp [autopull, h]⟩

theorem runRow_legal (i : Instr) (h : RowHead) (f : State → State × BitVec 5) (s : State)
    (hl : rowLegal s.cfg i = true) :
    runRow i h f s = .next (endRow h (f (beginRow h s)).2 (f (beginRow h s)).1) := by
  simp [runRow, hl]

theorem runRow_next (i : Instr) (h : RowHead) (f : State → State × BitVec 5) (s t : State)
    (ht : runRow i h f s = .next t) :
    rowLegal s.cfg i = true ∧ t = endRow h (f (beginRow h s)).2 (f (beginRow h s)).1 := by
  unfold runRow at ht
  split at ht
  · next hl => exact ⟨hl, by simpa using ht.symm⟩
  · cases ht

/-- What a SHIFT leaves in `SR` are `W` bits (40_timing_automaton.md R112). -/
theorem shiftOut_lt (width n : Nat) (sr : Word) : shiftOut width n sr < 2 ^ width := Nat.mod_lt _ (Nat.two_pow_pos _)

/-- What the push port carries are `W` bits (30_encoding.md R89). -/
theorem portWord_lt (width : Nat) (w : Word) : portWord width w < 2 ^ width := Nat.mod_lt _ (Nat.two_pow_pos _)

/-- A `W`-bit word goes through the push port as it is. -/
theorem portWord_of_lt (width : Nat) (w : Word) (h : w < 2 ^ width) : portWord width w = w := Nat.mod_eq_of_lt h

/-- The registers one row may write; every other field is as before. -/
def RowWrites (s t : State) : Prop :=
  t = { s with
    sr := t.sr, srcnt := t.srcnt, sym := t.sym, ctr := t.ctr, dly := t.dly, pins := t.pins, side := t.side,
    pc := t.pc, stalled := t.stalled, q := t.q }

/-- Everything a row can do: stall, or write the automaton's registers, with the queue kept or its head popped, the next
row by sequence or a legal target, a level of the pin group on the pins, and the consumed bits counted, with `W` bits left
in `SR`. -/
theorem exec_row_next (i : Instr) (s t : State) (hr : i.isRow = true) (h : exec i s = .next t) :
    RowWrites s t ∧
    ((t = { s with stalled := true } ∧ s.srcnt = s.cfg.wordWidth ∧ s.q = [])
    ∨ (rowLegal s.cfg i = true ∧ t.stalled = false
        ∧ (t.q = s.q ∨ ∃ w, s.q = w :: t.q)
        ∧ (t.pc = seqPc s ∨ t.pc.toNat < s.cfg.progLen)
        ∧ (t.pins = s.pins ∨ ∃ v, t.pins = pinLevel s.cfg.npins v)
        ∧ (t.srcnt = s.srcnt ∧ t.sr = s.sr
            ∨ t.sr < 2 ^ s.cfg.wordWidth ∧ (s.srcnt ≠ s.cfg.wordWidth ∧ t.srcnt = s.srcnt + s.cfg.symbolBits
              ∨ s.srcnt = s.cfg.wordWidth ∧ t.srcnt = s.cfg.symbolBits)))) := by
  cases i with
  | nop hd =>
    simp only [exec, execNop] at h
    obtain ⟨hl, rfl⟩ := runRow_next _ _ _ _ _ h
    exact ⟨rfl, .inr ⟨hl, rfl, .inl rfl, .inl rfl, .inl rfl, .inl ⟨rfl, rfl⟩⟩⟩
  | setp hd lit =>
    simp only [exec, execSetp] at h
    obtain ⟨hl, rfl⟩ := runRow_next _ _ _ _ _ h
    exact ⟨rfl, .inr ⟨hl, rfl, .inl rfl, .inl rfl, .inr ⟨_, rfl⟩, .inl ⟨rfl, rfl⟩⟩⟩
  | ldc hd imm =>
    simp only [exec, execLdc] at h
    obtain ⟨hl, rfl⟩ := runRow_next _ _ _ _ _ h
    exact ⟨rfl, .inr ⟨hl, rfl, .inl rfl, .inl rfl, .inl rfl, .inl ⟨rfl, rfl⟩⟩⟩
  | jmp hd tg =>
    simp only [exec, execJmp] at h
    obtain ⟨hl, rfl⟩ := runRow_next _ _ _ _ _ h
    refine ⟨rfl, .inr ⟨hl, rfl, .inl rfl, .inr ?_, .inl rfl, .inl ⟨rfl, rfl⟩⟩⟩
    simp [rowLegal, Instr.wellFormed] at hl
    exact hl.2.2
  | jbit hd b tg =>
    simp only [exec, execJbit] at h
    obtain ⟨hl, rfl⟩ := runRow_next _ _ _ _ _ h
    refine ⟨rfl, .inr ⟨hl, rfl, .inl rfl, ?_, .inl rfl, .inl ⟨rfl, rfl⟩⟩⟩
    simp [rowLegal, Instr.wellFormed] at hl
    simp only [endRow_pc]
    split
    · exact .inr hl.2.2
    · exact .inl rfl
  | jctr hd tg =>
    simp only [exec, execJctr] at h
    obtain ⟨hl, rfl⟩ := runRow_next _ _ _ _ _ h
    by_cases hc : s.ctr = 0#16
    · simp only [beginRow_ctr, hc, if_true]
      exact ⟨rfl, .inr ⟨hl, rfl, .inl rfl, .inl rfl, .inl rfl, .inl ⟨rfl, rfl⟩⟩⟩
    · simp only [beginRow_ctr, hc, if_false]
      refine ⟨rfl, .inr ⟨hl, rfl, .inl rfl, .inr ?_, .inl rfl, .inl ⟨rfl, rfl⟩⟩⟩
      simp [rowLegal, Instr.wellFormed] at hl
      exact hl.2.2
  | shift hd n d =>
    have hn : rowLegal s.cfg (.shift hd n d) = true → n.toNat = s.cfg.symbolBits := by
      intro hl; simp [rowLegal, Instr.wellFormed] at hl; exact hl.2.2
    simp only [exec, execShift] at h
    split at h
    · next hl =>
      rcases autopull_cases s with ⟨hc, ha⟩ | ⟨hc, hq, ha⟩ | ⟨hc, w, rest, hq, ha⟩
      · rw [ha] at h
        obtain ⟨_, rfl⟩ := runRow_next _ _ _ _ _ h
        refine ⟨rfl, .inr ⟨hl, rfl, .inl rfl, .inl rfl, ?_, .inr ⟨shiftOut_lt _ _ _, .inl ⟨hc, ?_⟩⟩⟩⟩
        · cases d
          · exact .inl rfl
          · exact .inr ⟨_, rfl⟩
        · simp [hn hl]
      · rw [ha] at h
        injection h with h
        subst h
        exact ⟨rfl, .inl ⟨rfl, hc, hq⟩⟩
      · rw [ha] at h
        obtain ⟨_, rfl⟩ := runRow_next _ _ _ _ _ h
        refine ⟨rfl, .inr ⟨hl, rfl, .inr ⟨w, hq⟩, .inl rfl, ?_, .inr ⟨shiftOut_lt _ _ _, .inr ⟨hc, ?_⟩⟩⟩⟩
        · cases d
          · exact .inl rfl
          · exact .inr ⟨_, rfl⟩
        · simp [hn hl]
    · cases h
  | rowReserved x => cases h
  | _ => cases hr

/-- Only rows are decoded from `PROG`. -/
theorem decodeRow_isRow (w : RowWord) (i : Instr) (h : decodeRow w = .ok i) : i.isRow = true := by
  unfold decodeRow at h
  repeat' split at h
  all_goals first | cases h; rfl | cases h

/-- Everything a tick can do (40_timing_automaton.md R101). -/
theorem automatonTick_next (s t : State) (h : automatonTick s = .next t) :
    (s.run = false ∧ t = s)
    ∨ (s.run = true ∧ s.dly ≠ 0#11 ∧ t = { s with dly := s.dly - 1#11 })
    ∨ (s.run = true ∧ s.dly = 0#11 ∧ haltAccepted s = true ∧ t = halt s)
    ∨ (s.run = true ∧ s.dly = 0#11 ∧ haltAccepted s = false
        ∧ ∃ w i, s.cfg.prog[s.pc.toNat]? = some w ∧ decodeRow w = .ok i ∧ exec i s = .next t) := by
  unfold automatonTick at h
  split at h
  · next hr => exact .inl ⟨hr, by simpa using h.symm⟩
  · next hr =>
    have hr : s.run = true := by simpa using hr
    split at h
    · next hd => exact .inr (.inl ⟨hr, hd, by simpa using h.symm⟩)
    · next hd =>
      have hd : s.dly = 0#11 := by simpa using hd
      split at h
      · next ha => exact .inr (.inr (.inl ⟨hr, hd, ha, by simpa using h.symm⟩))
      · next ha =>
        refine .inr (.inr (.inr ⟨hr, hd, by simpa using ha, ?_⟩))
        unfold runFetchedRow at h
        split at h
        · cases h
        · next w hw =>
          split at h
          · next i hi => exact ⟨w, i, hw, hi, h⟩
          · cases h

/-! ### The Streamer, commands, calls and loads -/

theorem execPush_next (w : Word) (s t : State) (h : execPush w s = .next t) :
    (queueHasRoom s = true ∧ t = queuePush (portWord s.cfg.wordWidth w) s) ∨ (queueHasRoom s = false ∧ t = s) := by
  unfold execPush at h
  split at h
  · next hq => exact .inl ⟨hq, by simpa using h.symm⟩
  · next hq => exact .inr ⟨by simpa using hq, by simpa using h.symm⟩

theorem pushEnabled_room (s : State) (h : pushEnabled s = true) : queueHasRoom s = true := by
  simp only [pushEnabled, Bool.and_eq_true] at h; exact h.1.2

/-- An enabled push step appends one word and moves `IDX` on (44_streamer_commands.md R188). -/
theorem streamerPush_next (s t : State) (hp : pushEnabled s = true) (h : streamerPush s = .next t) :
    ∃ w, s.frame[s.idx]? = some w ∧ t = advanceIdx (queuePush (portWord s.cfg.wordWidth w) s) := by
  unfold streamerPush at h
  split at h
  · cases h
  · next w hw =>
    have hr := pushEnabled_room s hp
    simp only [exec, execPush, hr, if_true] at h
    exact ⟨w, hw, by simpa using h.symm⟩

/-- Everything a turn of the Streamer can do (44_streamer_commands.md T-R186). -/
theorem streamerStep_next (f : Bool) (s t : State) (h : streamerStep f s = .next t) :
    t = s
    ∨ (s.srun = true ∧ s.stopReq = true ∧ t = streamerStop s)
    ∨ (rebuildEnabled s = true ∧ t = rebuildFrame s)
    ∨ (pushEnabled s = true ∧ ∃ w, s.frame[s.idx]? = some w
        ∧ t = advanceIdx (queuePush (portWord s.cfg.wordWidth w) s)) := by
  unfold streamerStep at h
  split at h
  · exact .inl (by simpa using h.symm)
  · next hs =>
    have hs : s.srun = true := by simpa using hs
    split at h
    · next hq =>
      split at h
      · next hp =>
        have hp : pushEnabled s = true := by simp at hp; exact hp.2
        exact .inr (.inr (.inr ⟨hp, streamerPush_next s t hp h⟩))
      · exact .inr (.inl ⟨hs, hq, by simpa using h.symm⟩)
    · split at h
      · next hb =>
        refine .inr (.inr (.inl ⟨hb, ?_⟩))
        simpa [exec, execRebuild, hb] using h.symm
      · split at h
        · next hp => exact .inr (.inr (.inr ⟨hp, streamerPush_next s t hp h⟩))
        · exact .inl (by simpa using h.symm)

/-- Everything a presented command word can do (30_encoding.md R88, 44_streamer_commands.md R180 to R183). -/
theorem presentCommand_next (w : CmdWord) (s t : State) (h : presentCommand w s = .next t) :
    (∃ r, t = { s with reply := r })
    ∨ (∃ a v, decodeCommand w = .ok (.setChannel a v) ∧ a.toNat < Config.nChannels
        ∧ t = commandOk (markDirty { s with ct := Memory.write s.ct a.toNat v }))
    ∨ (∃ on, decodeCommand w = .ok (.setTrackPower on) ∧ t = commandOk (markDirty { s with tp := on }))
    ∨ (decodeCommand w = .ok .start ∧ s.run = false ∧ s.srun = false ∧ cfgLegal s.cfg = true
        ∧ t = commandOk (startRun s))
    ∨ (decodeCommand w = .ok .stop ∧ s.srun = true ∧ t = commandOk { s with stopReq := true }) := by
  unfold presentCommand at h
  split at h
  · exact .inl ⟨_, by simpa [raiseConfigError] using h.symm⟩
  · exact .inl ⟨_, by simpa [raiseConfigError] using h.symm⟩
  · next i hne hi =>
    have hc : (∃ a v, i = .setChannel a v) ∨ (∃ on, i = .setTrackPower on) ∨ i = .start ∨ i = .stop ∨ i = .rebuild
        ∨ (∃ x, i = .cmdReserved5 x ∨ i = .cmdReserved6 x ∨ i = .cmdReserved7 x) := by
      unfold decodeCommand at hi
      repeat' split at hi
      all_goals first | cases hi; simp | cases hi
    rcases hc with ⟨a, v, rfl⟩ | ⟨on, rfl⟩ | rfl | rfl | rfl | ⟨x, rfl | rfl | rfl⟩
    · simp only [exec, execSetChannel] at h
      split at h
      · next ha => exact .inr (.inl ⟨a, v, hi, ha, by simpa using h.symm⟩)
      · exact .inl ⟨_, by simpa [raiseConfigError] using h.symm⟩
    · simp only [exec, execSetTrackPower] at h
      exact .inr (.inr (.inl ⟨on, hi, by simpa using h.symm⟩))
    · simp only [exec, execStart] at h
      split at h
      · exact .inl ⟨.ok, by simpa [commandOk] using h.symm⟩
      · next hr =>
        split at h
        · cases h
        · next hp =>
          split at h
          · cases h
          · next ht =>
            refine .inr (.inr (.inr (.inl ⟨hi, ?_, ?_, ?_, by simpa using h.symm⟩)))
            · simp at hr; exact hr.2
            · simp at hr; exact hr.1
            · simp [cfgLegal, hp, ht]
    · simp only [exec, execStop] at h
      by_cases hs : s.srun = true
      · exact .inr (.inr (.inr (.inr ⟨hi, hs, by simpa [hs] using h.symm⟩)))
      · exact .inl ⟨.ok, by simpa [hs, commandOk] using h.symm⟩
    · exact absurd rfl hne
    all_goals
      simp only [exec, execCmdReserved5, execCmdReserved6, execCmdReserved7, rejectReserved] at h
      exact .inl ⟨_, by simpa [raiseConfigError] using h.symm⟩

/-- A function call changes the reply only. -/
theorem callFunction_next (i : Instr) (s t : State) (h : callFunction i s = .next t) :
    ∃ r, t = { s with reply := r } := by
  unfold callFunction at h
  split at h
  · next hf =>
    cases i with
    | encodeByte v => exact ⟨_, by simpa [exec, execEncodeByte, replyWith] using h.symm⟩
    | decodeByte x => exact ⟨_, by simpa [exec, execDecodeByte, replyWith] using h.symm⟩
    | encodeHeader b tp => exact ⟨_, by simpa [exec, execEncodeHeader, replyWith] using h.symm⟩
    | polarityMap bits => exact ⟨_, by simpa [exec, execPolarityMap, replyWith] using h.symm⟩
    | encodeBlock b ct tp =>
      simp only [exec, execEncodeBlock] at h
      split at h
      · exact ⟨_, by simpa [replyWith] using h.symm⟩
      · cases h
    | encodeFrame ct tp =>
      simp only [exec, execEncodeFrame] at h
      split at h
      · exact ⟨_, by simpa [replyWith] using h.symm⟩
      · cases h
    | pack bits w u =>
      simp only [exec, execPack] at h
      split at h
      · exact ⟨_, by simpa [replyWith] using h.symm⟩
      · cases h
    | unpack words w =>
      simp only [exec, execUnpack] at h
      split at h
      · exact ⟨_, by simpa [replyWith] using h.symm⟩
      · cases h
    | _ => cases hf
  · cases h

/-- Everything a load can do (00_scope.md R5; log 12). -/
theorem loadCfg_next (c : Cfg) (s t : State) (h : loadCfg c s = .next t) :
    s.run = false ∧ s.srun = false ∧ cfgLegal c = true ∧ (s.cfg.prog ≠ [] → Cfg.sameParams s.cfg c = true)
      ∧ t = placeCfg c s := by
  unfold loadCfg at h
  split at h
  · cases h
  · next hr =>
    split at h
    · cases h
    · next hp =>
      split at h
      · cases h
      · next ht =>
        split at h
        · cases h
        · next hv =>
          simp only [Bool.or_eq_true, not_or, Bool.not_eq_true] at hr
          refine ⟨hr.1, hr.2, by simp [cfgLegal, hp, ht], ?_, by simpa using h.symm⟩
          intro hpr
          simpa [constructed, hpr] using hv

/-! ### The output trace -/

/-- What a step adds to the trace (40_timing_automaton.md R103): the outputs after a tick of a running automaton. -/
theorem observe_tick (outs : List (BitVec 2 × Bool)) (s t : State) (hr : s.run = true) (ht : nextTurn s = .tick) :
    observe outs s t = outs ++ [outputs t] := by
  simp [observe, hr, ht]

/-- A step of another agent adds nothing to the trace of a running automaton. -/
theorem observe_other (outs : List (BitVec 2 × Bool)) (s t : State) (hr : s.run = true) (ht : nextTurn s ≠ .tick) :
    observe outs s t = outs := by
  simp [observe, hr, ht]

/-- The step that sets `RUN` begins a new trace. -/
theorem observe_start (outs : List (BitVec 2 × Bool)) (s t : State) (hs : s.run = false) (ht : t.run = true) :
    observe outs s t = [] := by
  simp [observe, hs, ht]

/-! ### The Word Packer -/

@[simp] theorem packChunks_length (width n : Nat) (bits : Bits) : (packChunks width n bits).length = n := by
  induction n generalizing bits with
  | zero => rfl
  | succ n ih => simp [packChunks, ih]

@[simp] theorem packBits_length (bits : Bits) (width : Nat) :
    (packBits bits width).length = wordCount bits.length width := by
  simp [packBits]

/-! ### The Frame Encoder -/

@[simp] theorem encodeByte_length (v : Byte) : (encodeByte v).length = Config.encBits := rfl

@[simp] theorem encodeHeader_length (inv : Bool) (b : BitVec 4) (tp : Bool) :
    (encodeHeader inv b tp).length = Config.encBits := rfl

@[simp] theorem encodeBlock_length (inv : Bool) (b : BitVec 4) (ct : List Byte) (tp : Bool) :
    (encodeBlock inv b ct tp).length = Config.blockBits := by
  simp [encodeBlock, List.length_flatMap, Config.encBits, Config.slots, Config.blockBits]

@[simp] theorem encodeFrame_length (inv : Bool) (ct : List Byte) (tp : Bool) :
    (encodeFrame inv ct tp).length = Config.frameBits := by
  simp [encodeFrame, List.length_flatMap, Config.nBlocks, Config.blockBits, Config.frameBits]

@[simp] theorem polaritySymbol_length (pol : Bool) : (polaritySymbol pol).length = 2 := rfl

@[simp] theorem mapPolarity_length (pol : Bool) (bits : Bits) :
    (mapPolarity pol bits).length = 2 * bits.length := by
  induction bits generalizing pol with
  | nil => rfl
  | cons b bits ih => simp [mapPolarity, ih]; omega

end Sys2Proof.Machine
end

