-- ==== Sys2Proof/Laws/PerInstr.lean ====
section
/-! SUPPORT. Statements about every instruction as syntax, one lemma per constructor. Family `Opcode`: the word an
instruction is encoded as carries its own operation number in the opcode field of its port, and an instruction without
one has none. -/

namespace Sys2Proof

/-- The top of a row word is `op` (30_encoding.md T-R80). -/
theorem rowWord_op (op : BitVec 3) (h : RowHead) (arg : BitVec 16) : (rowWord op h arg).extractLsb' 29 3 = op := by
  simp only [rowWord]
  rw [BitVec.extractLsb'_append_eq_of_le (by omega), BitVec.extractLsb'_append_eq_of_le (by omega),
    BitVec.extractLsb'_append_eq_of_le (by omega), BitVec.extractLsb'_append_eq_of_le (by omega)]
  simp

/-- The top of a command word is `cmd` (30_encoding.md T-R87a). -/
theorem cmdWord_cmd (cmd : BitVec 3) (a v : BitVec 8) : (cmdWord cmd a v).extractLsb' 16 3 = cmd := by
  simp only [cmdWord]
  rw [BitVec.extractLsb'_append_eq_of_le (by omega), BitVec.extractLsb'_append_eq_of_le (by omega)]
  simp

end Sys2Proof

namespace Sys2Proof.Laws

/-- The opcode field of a word at its port: `op` of a row, `cmd` of a command; a queue word has none. -/
def opcodeField : Encoded → Option (BitVec 3)
  | .row w => some (w.extractLsb' 29 3)
  | .command w => some (w.extractLsb' 16 3)
  | .queueWord _ => none

/-- The operation numbers of 30_encoding.md T-R83 and T-R87b. -/
def tableOpcode : Instr → Option (BitVec 3)
  | .nop _ => some 0#3
  | .shift _ _ _ => some 1#3
  | .setp _ _ => some 2#3
  | .ldc _ _ => some 3#3
  | .jmp _ _ => some 4#3
  | .jbit _ _ _ => some 5#3
  | .jctr _ _ => some 6#3
  | .rowReserved _ => some 7#3
  | .setChannel _ _ => some 0#3
  | .setTrackPower _ => some 1#3
  | .start => some 2#3
  | .stop => some 3#3
  | .rebuild => some 4#3
  | .cmdReserved5 _ => some 5#3
  | .cmdReserved6 _ => some 6#3
  | .cmdReserved7 _ => some 7#3
  | .push _ => none
  | .encodeByte _ => none
  | .decodeByte _ => none
  | .encodeHeader _ _ => none
  | .encodeBlock _ _ _ => none
  | .encodeFrame _ _ => none
  | .polarityMap _ => none
  | .pack _ _ _ => none
  | .unpack _ _ => none

/-- Family `Opcode`. -/
def Opcode.Statement (i : Instr) : Prop := (encode i).bind opcodeField = tableOpcode i

theorem Opcode.nop (h : RowHead) : Opcode.Statement (.nop h) := by simp [Opcode.Statement, encode, opcodeField, tableOpcode, rowWord_op]

theorem Opcode.shift (h : RowHead) (n : BitVec 2) (d : Bool) : Opcode.Statement (.shift h n d) := by simp [Opcode.Statement, encode, opcodeField, tableOpcode, rowWord_op]

theorem Opcode.setp (h : RowHead) (lit : BitVec 8) : Opcode.Statement (.setp h lit) := by simp [Opcode.Statement, encode, opcodeField, tableOpcode, rowWord_op]

theorem Opcode.ldc (h : RowHead) (imm : BitVec 16) : Opcode.Statement (.ldc h imm) := by simp [Opcode.Statement, encode, opcodeField, tableOpcode, rowWord_op]

theorem Opcode.jmp (h : RowHead) (target : BitVec 5) : Opcode.Statement (.jmp h target) := by simp [Opcode.Statement, encode, opcodeField, tableOpcode, rowWord_op]

theorem Opcode.jbit (h : RowHead) (b : Bool) (target : BitVec 5) : Opcode.Statement (.jbit h b target) := by simp [Opcode.Statement, encode, opcodeField, tableOpcode, rowWord_op]

theorem Opcode.jctr (h : RowHead) (target : BitVec 5) : Opcode.Statement (.jctr h target) := by simp [Opcode.Statement, encode, opcodeField, tableOpcode, rowWord_op]

theorem Opcode.rowReserved (x : BitVec 29) : Opcode.Statement (.rowReserved x) := by
  simp only [Opcode.Statement, encode, opcodeField, tableOpcode, Option.bind_some]
  rw [BitVec.extractLsb'_append_eq_of_le (by omega)]
  rfl

theorem Opcode.setChannel (a : BitVec 8) (v : Byte) : Opcode.Statement (.setChannel a v) := by simp [Opcode.Statement, encode, opcodeField, tableOpcode, cmdWord_cmd]

theorem Opcode.setTrackPower (on : Bool) : Opcode.Statement (.setTrackPower on) := by simp [Opcode.Statement, encode, opcodeField, tableOpcode, cmdWord_cmd]

theorem Opcode.start : Opcode.Statement .start := by simp [Opcode.Statement, encode, opcodeField, tableOpcode, cmdWord_cmd]

theorem Opcode.stop : Opcode.Statement .stop := by simp [Opcode.Statement, encode, opcodeField, tableOpcode, cmdWord_cmd]

theorem Opcode.rebuild : Opcode.Statement .rebuild := by simp [Opcode.Statement, encode, opcodeField, tableOpcode, cmdWord_cmd]

theorem Opcode.cmdReserved5 (x : BitVec 16) : Opcode.Statement (.cmdReserved5 x) := by
  simp only [Opcode.Statement, encode, opcodeField, tableOpcode, Option.bind_some]
  rw [BitVec.extractLsb'_append_eq_of_le (by omega)]
  rfl

theorem Opcode.cmdReserved6 (x : BitVec 16) : Opcode.Statement (.cmdReserved6 x) := by
  simp only [Opcode.Statement, encode, opcodeField, tableOpcode, Option.bind_some]
  rw [BitVec.extractLsb'_append_eq_of_le (by omega)]
  rfl

theorem Opcode.cmdReserved7 (x : BitVec 16) : Opcode.Statement (.cmdReserved7 x) := by
  simp only [Opcode.Statement, encode, opcodeField, tableOpcode, Option.bind_some]
  rw [BitVec.extractLsb'_append_eq_of_le (by omega)]
  rfl

theorem Opcode.push (w : Word) : Opcode.Statement (.push w) := rfl

theorem Opcode.encodeByte (v : Byte) : Opcode.Statement (.encodeByte v) := rfl

theorem Opcode.decodeByte (x : BitVec 12) : Opcode.Statement (.decodeByte x) := rfl

theorem Opcode.encodeHeader (b : BitVec 4) (tp : Bool) : Opcode.Statement (.encodeHeader b tp) := rfl

theorem Opcode.encodeBlock (b : BitVec 4) (ct : List Byte) (tp : Bool) : Opcode.Statement (.encodeBlock b ct tp) := rfl

theorem Opcode.encodeFrame (ct : List Byte) (tp : Bool) : Opcode.Statement (.encodeFrame ct tp) := rfl

theorem Opcode.polarityMap (bits : Bits) : Opcode.Statement (.polarityMap bits) := rfl

theorem Opcode.pack (bits : Bits) (wordWidth bitsPerSymbolUnit : Nat) : Opcode.Statement (.pack bits wordWidth bitsPerSymbolUnit) := rfl

theorem Opcode.unpack (words : List Nat) (wordWidth : Nat) : Opcode.Statement (.unpack words wordWidth) := rfl

end Sys2Proof.Laws
end

