-- ==== Sys2Proof/Tests/Slice0.lean ====
section
/-! SUPPORT. The model's own tests: decoding of words written out from the spec's encodings, ill-formed terms refused, one
step on small states with the results of 95_test_vectors.md, and a witness for the hypotheses of every statement. -/

namespace Sys2Proof.Tests

open Sys2Proof Sys2Proof.Machine

/-! ### Decoding, bit by bit (30_encoding.md T-R84, T-R87b; words of 95_test_vectors.md 2.6 and 2.8) -/

-- NOP: op 000, se 1, sv 1, cyc 39, arg 0
theorem test_decode_nop : decodeRow 0b00011000001001110000000000000000#32 = .ok (.nop ⟨true, true, 39#11⟩) := by decide
-- SHIFT: op 001, se 1, sv 0, cyc 9, d 1, n 01
theorem test_decode_shift : decodeRow 0b00110000000010010000000100000001#32 = .ok (.shift ⟨true, false, 9#11⟩ 1#2 true) := by decide
-- SETP: op 010, se 0, sv 0, cyc 57, lit 1
theorem test_decode_setp : decodeRow 0b01000000001110010000000000000001#32 = .ok (.setp ⟨false, false, 57#11⟩ 1#8) := by decide
-- LDC: op 011, se 1, sv 0, cyc 0, imm 19
theorem test_decode_ldc : decodeRow 0b01110000000000000000000000010011#32 = .ok (.ldc ⟨true, false, 0#11⟩ 19#16) := by decide
-- JMP: op 100, target 6
theorem test_decode_jmp : decodeRow 0b10000000000000000000000000000110#32 = .ok (.jmp ⟨false, false, 0#11⟩ 6#5) := by decide
-- JBIT: op 101, s 1, target 5
theorem test_decode_jbit : decodeRow 0b10100000000000000000000100000101#32 = .ok (.jbit ⟨false, false, 0#11⟩ true 5#5) := by decide
-- JCTR: op 110, target 3
theorem test_decode_jctr : decodeRow 0b11000000000000000000000000000011#32 = .ok (.jctr ⟨false, false, 0#11⟩ 3#5) := by decide
-- op 111
theorem test_decode_rowReserved : decodeRow 0b11100000000000000000000000000101#32 = .ok (.rowReserved 5#29) := by decide
-- cmd 000, a 5, v 0x12
theorem test_decode_setChannel : decodeCommand 0b0000000010100010010#19 = .ok (.setChannel 5#8 0x12#8) := by decide
theorem test_decode_setTrackPower : decodeCommand 0b0010000000000000001#19 = .ok (.setTrackPower true) := by decide
theorem test_decode_start : decodeCommand 0b0100000000000000000#19 = .ok .start := by decide
theorem test_decode_stop : decodeCommand 0b0110000000000000000#19 = .ok .stop := by decide
theorem test_decode_rebuild : decodeCommand 0b1000000000000000000#19 = .ok .rebuild := by decide
theorem test_decode_cmdReserved5 : decodeCommand 0b1010000000000000001#19 = .ok (.cmdReserved5 1#16) := by decide
theorem test_decode_cmdReserved6 : decodeCommand 0b1100000000000000010#19 = .ok (.cmdReserved6 2#16) := by decide
theorem test_decode_cmdReserved7 : decodeCommand 0b1110000000000000011#19 = .ok (.cmdReserved7 3#16) := by decide
theorem test_decode_push : decode (.queueWord 0x1FFB7924) = .ok (.push 0x1FFB7924) := by decide
-- the pure functions have no instruction word (R70): their rows of the table are the formats they produce
theorem test_functions_have_no_word : encode (.encodeByte 0#8) = none ∧ encode (.pack [] 32 1) = none := by decide
-- ill-formed words of 95_test_vectors.md 2.6: SHIFT with d's neighbour set, JMP above the target field
theorem test_decode_must_be_zero :
    decodeRow 0x80000020#32 = .error .rowMustBeZero ∧ decodeRow 0x20000201#32 = .error .rowMustBeZero := by decide
theorem test_decodeTableWord :
    decodeTableWord 32 0x30090101 = some (.shift ⟨true, false, 9#11⟩ 1#2 true)
      ∧ decodeTableWord 24 0x30000 = some .stop ∧ decodeTableWord 24 0x10002 = none
      ∧ decodeTableWord 32 1 = some (.push 1) := by decide

/-! ### Ill-formed terms -/

/-- Selectrix, two-line, table SX of 41_waveform_generators.md R131. -/
def sxCfg : Cfg := cfgFor Config.construction .twoLine true [0x30090101#32, 0x18270000#32]
/-- Selectrix, differential. -/
def dfCfg : Cfg := cfgFor Config.construction .differential true [0x30090102#32, 0x18270000#32]
/-- The plain head of a one-tick row. -/
def h0 : RowHead := ⟨false, false, 0#11⟩

theorem test_wf_side_value : (Instr.nop ⟨false, true, 0#11⟩).wellFormed sxCfg = false := by decide
theorem test_wf_side_absent : (Instr.ldc ⟨true, false, 0#11⟩ 0#16).wellFormed { sxCfg with sideEn := false } = false := by decide
theorem test_wf_shift_count : (Instr.shift h0 3#2 true).wellFormed sxCfg = false := by decide
theorem test_wf_shift_width : (Instr.shift h0 2#2 true).wellFormed sxCfg = false := by decide
theorem test_wf_literal : (Instr.setp h0 2#8).wellFormed sxCfg = false := by decide
theorem test_wf_target : (Instr.jmp h0 2#5).wellFormed sxCfg = false ∧ (Instr.jbit h0 true 2#5).wellFormed sxCfg = false
    ∧ (Instr.jctr h0 2#5).wellFormed sxCfg = false := by decide
theorem test_wf_reserved : (Instr.rowReserved 0#29).wellFormed sxCfg = false ∧ (Instr.cmdReserved5 0#16).wellFormed sxCfg = false
    ∧ (Instr.cmdReserved6 0#16).wellFormed sxCfg = false ∧ (Instr.cmdReserved7 0#16).wellFormed sxCfg = false := by decide
theorem test_wf_address : (Instr.setChannel 112#8 0#8).wellFormed sxCfg = false := by decide
theorem test_wf_push : (Instr.push 256).wellFormed { sxCfg with wordWidth := 8 } = false := by decide
theorem test_wf_table_size : (Instr.encodeBlock 0#4 [0#8] true).wellFormed sxCfg = false
    ∧ (Instr.encodeFrame [] true).wellFormed sxCfg = false := by decide
theorem test_wf_pack : (Instr.pack [true] 8 2).wellFormed sxCfg = false ∧ (Instr.pack [] 7 2).wellFormed sxCfg = false
    ∧ (Instr.pack [] 8 3).wellFormed sxCfg = false ∧ (Instr.pack [] 0 1).wellFormed sxCfg = false := by decide
theorem test_wf_unpack : (Instr.unpack [16] 4).wellFormed sxCfg = false ∧ (Instr.unpack [] 0).wellFormed sxCfg = false := by decide
theorem test_wf_cfg : ({ sxCfg with symbolBits := 3 } : Cfg).paramsLegal = false
    ∧ ({ sxCfg with wordWidth := 0 } : Cfg).paramsLegal = false
    ∧ ({ dfCfg with wordWidth := 31 } : Cfg).paramsLegal = false ∧ ({ sxCfg with npins := 2 } : Cfg).paramsLegal = false
    ∧ ({ sxCfg with cycleNs := 999 } : Cfg).paramsLegal = false ∧ ({ sxCfg with cycleNs := 2001 } : Cfg).paramsLegal = false
    ∧ ({ sxCfg with qdepth := 0 } : Cfg).paramsLegal = false
    ∧ ({ sxCfg with variant := .differential } : Cfg).paramsLegal = false := by decide
-- 70_reset_and_hazards.md R234: `W` = 64, and a `W` that leaves padding
theorem test_wf_wide : ({ dfCfg with wordWidth := 64 } : Cfg).paramsLegal = true ∧ nwords { sxCfg with wordWidth := 64 } = 24
    ∧ nwords { sxCfg with wordWidth := 1000 } = 2 := by decide
theorem test_wf_table : tableLegal { sxCfg with prog := [] } = false ∧ tableLegal { sxCfg with prog := [0#32] } = false
    ∧ tableLegal { sxCfg with prog := 0xE0000000#32 :: sxCfg.prog } = false
    ∧ tableLegal { sxCfg with prog := List.replicate 33 0x20000001#32 } = false := by decide

/-! ### Tables (41_waveform_generators.md R131, R135 to R138: the row words given there) -/

theorem test_table_sx : sxTable 1 1000 = some sxCfg.prog ∧ sxTable 2 2000 = some [0x30040102#32, 0x18130000#32] := by decide
theorem test_table_dcc : dccTable 1000 = some [0x20000001#32, 0xA0000105#32, 0x40630001#32, 0x40600000#32,
    0x80000000#32, 0x40390001#32, 0x40370000#32] := by decide
theorem test_table_dcc_rc : dccRcTable 20 1000 = some [0xC0000003#32, 0x59C10000#32, 0x70000013#32, 0x20000001#32,
    0xA0000008#32, 0x40390001#32, 0x40350000#32, 0x80000000#32, 0x40630001#32, 0x40600000#32] := by decide
theorem test_table_mm : mmTable 26 182 1000 = some [0x20000001#32, 0xA0000105#32, 0x40190001#32, 0x40B20000#32,
    0x80000000#32, 0x40B50001#32, 0x40170000#32] := by decide
theorem test_table_mfx : mfxTable 1 50 1000 = some [0x20310101#32] ∧ mfxTable 1 25 2000 = none := by decide
theorem test_asm : assembleRow ⟨.wait, none, 2049⟩ = none
    ∧ assembleRow ⟨.wait, some true, 40⟩ = some (.nop ⟨true, true, 39#11⟩) := by decide

/-! ### One step on small states (95_test_vectors.md 2.7 to 2.9) -/

/-- A running two-line transmitter with an empty shift register, and the turns to come. -/
def running (turns : List Turn) : State :=
  { startRun { State.reset with cfg := sxCfg } with turns := turns }
/-- The same, differential. -/
def runningDf : State := startRun { State.reset with cfg := dfCfg }
/-- A running machine whose table has ten rows. -/
def running10 : State :=
  startRun { State.reset with cfg := { sxCfg with prog := List.replicate 10 0x20000001#32 } }

/-- The next state of an outcome satisfies a check. -/
def nextIs (r : Result) (p : State → Bool) : Bool :=
  match r with
  | .next t => p t
  | .fault _ => false
  | .refused _ => false

theorem test_nop : nextIs (exec (.nop ⟨true, true, 39#11⟩) { running10 with pc := 1#5 })
    (fun t => t.pc == 2#5 && t.dly == 39#11 && t.side) = true := by decide
theorem test_wrap : nextIs (exec (.nop h0) { running10 with pc := 9#5 }) (fun t => t.pc == 0#5) = true := by decide
theorem test_shift : nextIs (exec (.shift h0 1#2 true) { running [] with sr := 0x1FFB7924, srcnt := 0, pins := 1#2 })
    (fun t => t.sym == 0#2 && t.pins == 0#2 && t.sr == 0x3FF6F248 && t.srcnt == 1) = true := by decide
theorem test_shift_pull : nextIs (exec (.shift h0 1#2 true) { running [] with q := [0x92492492, 0x49249249] })
    (fun t => t.sr == 0x24924924 && t.srcnt == 1 && t.pins == 1#2 && t.q == [0x49249249]) = true := by decide
theorem test_shift_two : nextIs (exec (.shift h0 2#2 true) { runningDf with sr := 0x56666659, srcnt := 0 })
    (fun t => t.sym == 1#2 && bitFlag t && t.pins == 1#2 && t.sr == 0x59999964 && t.srcnt == 2) = true := by decide
theorem test_setp : nextIs (exec (.setp ⟨false, false, 57#11⟩ 1#8) running10)
    (fun t => t.pins == 1#2 && t.dly == 57#11) = true := by decide
theorem test_ldc : nextIs (exec (.ldc h0 19#16) { running10 with ctr := 7#16 }) (fun t => t.ctr == 19#16) = true := by decide
theorem test_jmp : nextIs (exec (.jmp h0 0#5) { running10 with pc := 4#5 }) (fun t => t.pc == 0#5) = true := by decide
theorem test_jbit : nextIs (exec (.jbit h0 true 5#5) { running10 with pc := 1#5, sym := 1#2 }) (fun t => t.pc == 5#5) = true := by decide
theorem test_jbit_not : nextIs (exec (.jbit h0 true 5#5) { running10 with pc := 1#5, sym := 2#2 }) (fun t => t.pc == 2#5) = true := by decide
theorem test_jctr : nextIs (exec (.jctr h0 3#5) { running10 with ctr := 1#16 }) (fun t => t.ctr == 0#16 && t.pc == 3#5) = true := by decide
theorem test_jctr_zero : nextIs (exec (.jctr h0 3#5) running10) (fun t => t.ctr == 0#16 && t.pc == 1#5) = true := by decide
theorem test_set_channel : nextIs (exec (.setChannel 5#8 0x12#8) State.reset) (fun t => t.ct == [(5, 0x12#8)] && t.dirty) = true := by decide
theorem test_set_channel_zero : nextIs (exec (.setChannel 5#8 0#8) { State.reset with ct := [(5, 0x12#8)] }) (fun t => t.ct == []) = true := by decide
theorem test_set_track_power : nextIs (exec (.setTrackPower true) { State.reset with dirty := false }) (fun t => t.tp && t.dirty) = true := by decide
theorem test_start : nextIs (exec .start { State.reset with cfg := sxCfg }) (fun t => t.run && t.srun && t.srcnt == 32) = true := by decide
theorem test_start_while_stopping : nextIs (exec .start { running [] with srun := false, haltReq := true })
    (fun t => !t.srun && t.haltReq) = true := by decide
theorem test_stop : nextIs (exec .stop (running [])) (fun t => t.stopReq && t.srun) = true := by decide
theorem test_reserved : nextIs (exec (.cmdReserved6 0#16) State.reset)
    (fun t => t.reply == .configError .badCommand 0x60000#19) = true := by decide
theorem test_application_rebuild : nextIs (step (running [.command 0x40000#19]))
    (fun t => t.reply == .configError .badCommand 0x40000#19 && t.dirty) = true := by decide
theorem test_masked_value : nextIs (step { State.reset with turns := [.api (.setChannel 0#8 0x1AC)] })
    (fun t => t.ct == [(0, 0xAC#8)]) = true := by decide
theorem test_push_full : nextIs (exec (.push 1) { running [] with q := List.replicate 8 0 }) (fun t => t.q.length == 8) = true := by decide
theorem test_push : nextIs (step { running [.streamer false] with idx := 47, dirty := false, frameValid := true, q := List.replicate 7 1 })
    (fun t => t.idx == 0 && t.q.length == 8) = true := by decide
-- scenario S1: the image of block 0
theorem test_rebuild_image : (packBits (encodeBlock true 0#4 (0xAC#8 :: List.replicate 111 0#8) true) 32)
    = [0x1FFB7924, 0x92492492, 0x49249249] := by decide
theorem test_encode_byte : bitsVal (encodeByte 0xAC#8) = 0xB79 ∧ bitsVal (encodeByte 0x3C#8) = 0x3F9 := by decide
theorem test_decode_byte : decodeByte 0xB79#12 = 0xAC#8 ∧ decodeByte 0x2CD#12 = 0x12#8 := by decide
theorem test_encode_header : bitsVal (encodeHeader true 5#4 true) = 0x1ED ∧ bitsVal (encodeHeader false 5#4 false) = 0x15B := by decide
-- vector B1: block 3 of the table CT[a] = a
theorem test_encode_block : packBits (encodeBlock true 3#4 ((List.range 112).map (BitVec.ofNat 8)) true) 32
    = [0x1F924F2C, 0xF34F3CF6, 0x4F6CF74F] := by decide
-- vector B5: channel 111 is the last twelve bits of the frame
theorem test_encode_frame : bitsVal ((encodeFrame true (List.replicate 111 0#8 ++ [0x81#8]) false).drop 1524) = 0xA4B := by
  decide +kernel
theorem test_polarity_map : mapPolarity false [false, false, false, true, true, true]
    = [false, true, false, true, false, true, true, false, false, true, true, false] := by decide
theorem test_pack : packBits [true, false, false, true, false, true, true, false, false, true] 4 = [9, 6, 4]
    ∧ packBits (List.replicate 33 true) 32 = [0xFFFFFFFF, 0x80000000] ∧ packBits [] 32 = [] := by decide
theorem test_unpack : unpackWords [0xB0] 8 = [true, false, true, true, false, false, false, false] := by decide
theorem test_delay : nextIs (automatonTick { running [] with dly := 5#11, haltReq := true }) (fun t => t.dly == 4#11 && t.run) = true := by decide
theorem test_halt_waits : nextIs (automatonTick { running [] with pc := 1#5, haltReq := true, srun := false })
    (fun t => t.run && t.side) = true := by decide
-- 70_reset_and_hazards.md R234: a 64-bit word is pulled and shifted whole
theorem test_shift_wide : nextIs (exec (.shift h0 1#2 true)
      { running [] with cfg := { sxCfg with wordWidth := 64 }, srcnt := 64, q := [0x8000000000000001] })
    (fun t => t.pins == 1#2 && t.srcnt == 1 && t.sr == 2) = true := by decide
-- 40_timing_automaton.md R103: the word another agent pushes between START and tick 0 is on the pins after tick 0
theorem test_trace : outAt 3 { State.reset with
      cfg := sxCfg, dirty := false, frameValid := true, frame := List.replicate 48 0x80000000
      turns := [.api .start, .streamer false, .tick] } 0 = some (1#2, false) := by decide
theorem test_fetch_word : nextIs (step (State.reset.withFetchWord 32 0x600000FF)) (fun t => t.ctr == 0xFF#16) = true := by decide

/-! ### Witnesses: the hypotheses of every statement, met together, each clause at a boundary -/

/-- Hypotheses are met and the step they speak of has a next state. -/
theorem started_inv (turns : List Turn) (q : List Word) (hq : q.length ≤ 8) (hw : ∀ w ∈ q, w < 2 ^ 32) :
    Inv { running turns with q := q } where
  tableForm := rfl
  noFrameIsDirty _ := rfl
  frameCurrent h := nomatch h
  frameSize := (by decide : (List.replicate 48 0).length = nwords sxCfg)
  queueBound := hq
  streamerNeedsRun _ := rfl
  haltAfterStreamer h := nomatch h
  stopNeedsStreamer h := nomatch h
  stoppedIdle h := nomatch h
  runsLegal _ := (by decide : cfgLegal sxCfg = true)
  pcInTable _ := (by decide : (0#5).toNat < sxCfg.progLen)
  shiftCount _ := (by decide : sxCfg.wordWidth ≤ sxCfg.wordWidth ∧ sxCfg.wordWidth % sxCfg.symbolBits = 0)
  shiftBits h := absurd rfl h
  frameNeedsTable h := nomatch h
  idxInFrame _ := (by decide : 0 < nwords sxCfg)
  pinsInGroup _ := (by decide : (0#2).toNat < 2 ^ sxCfg.npins)
  queueWords := hw
  stallPlace h := nomatch h

theorem witness_RowDecodeFollowsOpcodeMap :
    0x1FFF0000#32 &&& 0xE000FFFF#32 = 0x00000000#32 ∧ 0x30090102#32 &&& 0xE000FEFC#32 = 0x20000000#32
      ∧ 0x59C100FF#32 &&& 0xE000FF00#32 = 0x40000000#32 ∧ 0x7FFFFFFF#32 &&& 0xE0000000#32 = 0x60000000#32
      ∧ 0x8000001F#32 &&& 0xE000FFE0#32 = 0x80000000#32 ∧ 0xA000011F#32 &&& 0xE000FEE0#32 = 0xA0000000#32
      ∧ 0xC000001F#32 &&& 0xE000FFE0#32 = 0xC0000000#32 := by decide
theorem witness_DecodeEncodeRoundTrip : encode (.ldc ⟨true, true, 2047#11⟩ 0xFFFF#16) = some (.row 0x7FFFFFFF#32)
    ∧ (Instr.push 0).isFunction = false := by decide
theorem witness_EncodeDecodeRoundTrip : decode (.row 0x7FFFFFFF#32) = .ok (.ldc ⟨true, true, 2047#11⟩ 0xFFFF#16) := by decide
theorem witness_TickRunsTheFetchedRow :
    let s := { running [.tick] with pc := 1#5, haltReq := true, srun := false }
    s.run = true ∧ s.dly = 0#11 ∧ ¬ (s.haltReq = true ∧ (s.pc = 0#5 ∨ s.stalled = true))
      ∧ s.cfg.prog[s.pc.toNat]? = some 0x18270000#32 ∧ decodeRow 0x18270000#32 = .ok (.nop ⟨true, true, 39#11⟩) := by decide
theorem witness_CommandsAndCallsRunTheirInstruction :
    decodeCommand 0x06FFF#19 = .ok (.setChannel 111#8 0xFF#8) ∧ decodeCommand (apiWord .stop) = .ok .stop
      ∧ (Instr.decodeByte 0#12).isFunction = true := by decide
theorem witness_UndecidedTurnIsTheFreeOne : State.reset.turns = [] := rfl
theorem witness_NopResult : (Instr.nop ⟨true, true, 2047#11⟩).wellFormed sxCfg = true
    ∧ (Instr.nop h0).wellFormed { sxCfg with sideEn := false } = true := by decide
theorem witness_LdcResult : (Instr.ldc h0 0xFFFF#16).wellFormed sxCfg = true := by decide
theorem witness_JmpResult : (Instr.jmp h0 1#5).wellFormed sxCfg = true := by decide
theorem witness_JbitResult : (Instr.jbit h0 false 1#5).wellFormed sxCfg = true := by decide
theorem witness_JctrResult : (Instr.jctr h0 1#5).wellFormed sxCfg = true := by decide
theorem witness_ShiftResult :
    sxCfg.paramsLegal = true ∧ (Instr.shift h0 1#2 true).wellFormed sxCfg = true
      ∧ dfCfg.paramsLegal = true ∧ (Instr.shift h0 2#2 false).wellFormed dfCfg = true
      ∧ ({ running [] with srcnt := 31 } : State).srcnt ≠ sxCfg.wordWidth
      ∧ (running []).srcnt = sxCfg.wordWidth ∧ ∃ w rest, ({ running [] with q := [0xFFFFFFFF] } : State).q = w :: rest :=
  ⟨by decide, by decide, by decide, by decide, by decide, by decide, _, _, rfl⟩
theorem witness_EmptyQueueStalls : (Instr.shift h0 1#2 false).wellFormed (running []).cfg = true
    ∧ (running []).srcnt = (running []).cfg.wordWidth ∧ (running []).q = [] := by decide
theorem witness_SetpResult : sxCfg.paramsLegal = true ∧ (Instr.setp h0 1#8).wellFormed sxCfg = true
    ∧ dfCfg.paramsLegal = true ∧ (Instr.setp h0 3#8).wellFormed dfCfg = true := by decide
theorem witness_ReservedRowsAreRefused :
    (2#2).toNat ≠ sxCfg.symbolBits ∧ 2 ^ sxCfg.npins ≤ (2#8).toNat ∧ sxCfg.prog.length ≤ (2#5).toNat
      ∧ (⟨true, true, 0#11⟩ : RowHead).se = true ∧ ({ sxCfg with sideEn := false } : Cfg).sideEn = false
      ∧ decodeRow 0x00000001#32 = .error .rowMustBeZero
      ∧ rowWordLegal sxCfg 0x08000000#32 = false := by decide
theorem witness_ReservedRowsAreRefused_tick :
    let s := { running [.tick] with
      cfg := { sxCfg with prog := [0x20000001#32, 0x00000001#32] }, pc := 1#5, haltReq := true, stalled := false }
    s.run = true ∧ s.dly = 0#11 ∧ ¬ (s.haltReq = true ∧ (s.pc = 0#5 ∨ s.stalled = true))
      ∧ s.cfg.prog[s.pc.toNat]? = some 0x00000001#32 := by decide
theorem witness_RowsLeaveOtherAgentsState : ∃ t, exec (.shift h0 1#2 true) (running []) = .next t := ⟨_, rfl⟩
theorem witness_TickBetweenRows : State.reset.run = false ∧ (running []).run = true
    ∧ ({ running [] with dly := 1#11 } : State).dly ≠ 0#11 := by decide
theorem witness_HaltAtCellBoundaryOnly :
    let s := { running [.tick] with haltReq := true, srun := false }
    let u := { running [.tick] with haltReq := true, srun := false, pc := 1#5 }
    s.run = true ∧ s.haltReq = true ∧ s.dly = 0#11 ∧ s.pc = 0#5 ∧ u.pc ≠ 0#5 ∧ u.stalled = false
      ∧ nextIs (step u) (fun _ => true) = true := by decide
theorem witness_OutputsHoldWhileRowTimesOut :
    ({ running [] with dly := 2047#11 } : State).run = true ∧ 2047 ≤ ({ running [] with dly := 2047#11 } : State).dly.toNat := by decide
theorem witness_OutputsChangeOnlyAtRowBoundaries :
    Inv { running [.tick] with q := [0x80000000] }
      ∧ ∃ t, step { running [.tick] with q := [0x80000000] } = .next t ∧ outputs t ≠ outputs (running []) :=
  ⟨started_inv _ _ (by decide) (by simp), _, rfl, by decide⟩
theorem witness_SelectrixBitCell :
    let s := { running [] with srcnt := 31 }
    s.cfg.paramsLegal = true ∧ s.cfg.sideEn = true ∧ sxTable s.cfg.symbolBits 1000 = some s.cfg.prog ∧ s.run = true
      ∧ s.haltReq = false ∧ s.pc = 0#5 ∧ s.dly = 0#11 ∧ s.srcnt ≠ s.cfg.wordWidth := by decide
theorem witness_SelectrixBitCell_pull :
    let s := { running [] with q := [0x92492492] }
    s.cfg.paramsLegal = true ∧ s.cfg.sideEn = true ∧ sxTable s.cfg.symbolBits 1000 = some s.cfg.prog ∧ s.run = true
      ∧ s.haltReq = false ∧ s.pc = 0#5 ∧ s.dly = 0#11 ∧ s.srcnt = s.cfg.wordWidth ∧ s.q = 0x92492492 :: [] := by decide
/-- A row with two ticks to come, and another agent's step before each of them. -/
def interleaved : State :=
  { running [.streamer false, .tick, .command 0x50000#19, .tick] with dly := 2#11, pins := 1#2 }
theorem witness_OutputTraceOfAnyInterleaving : interleaved.run = true
    ∧ nextIs (Sys2Proof.core.run 4 interleaved) (fun t => t.dly == 0#11) = true
    ∧ tickCount 4 interleaved ≤ interleaved.dly.toNat ∧ 1 < tickCount 4 interleaved := by decide
theorem witness_OutputTraceOfAnyInterleaving_start : State.reset.run = false
    ∧ nextIs (step { State.reset with cfg := sxCfg, turns := [.api .start] }) (fun t => t.run) = true := by decide
/-- After a START: another agent's step, then tick 0. -/
theorem witness_OutputTraceOfAnyInterleaving_counted :
    let s := { State.reset with cfg := sxCfg, turns := [.api .start, .command 0x50000#19, .tick] }
    ∃ u t, step s = .next u ∧ s.run = false ∧ u.run = true ∧ Sys2Proof.core.run 1 u = .next t
      ∧ (∀ j v, j ≤ 1 → Sys2Proof.core.run j u = .next v → v.run = true)
      ∧ nextTurn t = .tick ∧ nextIs (step t) (fun _ => true) = true := by
  refine ⟨_, _, rfl, rfl, rfl, rfl, ?_, rfl, by decide⟩
  intro j v hj h
  obtain rfl | rfl : j = 0 ∨ j = 1 := by omega
  all_goals (cases h; rfl)
/-- The tick that begins a row of three ticks, and another agent's step before its second tick. -/
theorem witness_OutputTraceOfAnyInterleaving_row :
    let s := { running [.tick, .command 0x50000#19, .tick] with cfg := { sxCfg with prog := [0x20000001#32, 0x00020000#32] }, pc := 1#5 }
    s.run = true ∧ nextTurn s = .tick ∧ nextIs (step s) (fun u => u.run
      && nextIs (Sys2Proof.core.run 2 u) (fun _ => true) && decide (tickCount 2 u ≤ u.dly.toNat ∧ 0 < tickCount 2 u)) = true := by
  decide
theorem witness_ProtocolTablesAreThePrintedWords : (sxTable 1 1000).isSome = true ∧ (sxTable 2 1000).isSome = true
    ∧ (dccRcTable 20 1000).isSome = true ∧ (dccTable 1000).isSome = true ∧ (mmTable 26 182 1000).isSome = true
    ∧ (mfxTable 1 50 1000).isSome = true := by decide
theorem witness_ShiftOutFollowsUnpack :
    let s := { runningDf with srcnt := 30, sr := 0xC0000000 }
    s.cfg.paramsLegal = true ∧ (Instr.shift h0 2#2 true).wellFormed s.cfg = true ∧ 3 < 2 ^ s.cfg.wordWidth
      ∧ s.srcnt + (2#2).toNat ≤ s.cfg.wordWidth
      ∧ s.sr = 3 * 2 ^ s.srcnt % 2 ^ s.cfg.wordWidth := by decide
theorem witness_SetChannelResult : Memory.wf State.reset.ct = true ∧ (111#8).toNat ≤ 111 ∧ 111 < (112#8).toNat := by decide
theorem witness_StartResult : (running []).srun = true ∧ ({ State.reset with cfg := dfCfg } : State).run = false
    ∧ dfCfg.paramsLegal = true ∧ tableLegal dfCfg = true := by decide
theorem witness_StartOutsideTheDomainIsRefused : State.reset.srun = false ∧ State.reset.run = false
    ∧ State.reset.cfg.paramsLegal = true ∧ State.reset.cfg.prog = [] ∧ 32 < (List.replicate 33 0x20000001#32).length
    ∧ isShiftWord 0x18270000#32 = false ∧ ({ sxCfg with qdepth := 0 } : Cfg).paramsLegal = false := by decide
theorem witness_StopResult : (running []).srun = true ∧ State.reset.srun = false := by decide
theorem witness_ReservedCommandWordsAreRejected :
    (running [.command (cmdWord 4#3 0#8 0#8)]).turns = .command (cmdWord 4#3 0#8 0#8) :: []
      ∧ cmdWord 1#3 0#8 2#8 = 0x10002#19 ∧ 1 < (2#8).toNat ∧ 112 ≤ (112#8).toNat := by decide
theorem witness_ApiValuesAreMasked : (running [.api (.setChannel 0#8 256)]).turns = [.api (.setChannel 0#8 256)]
    ∧ 1 < (2#8).toNat := by decide
theorem witness_RebuildResult : (running []).srun = true ∧ (running []).stopReq = false ∧ (running []).idx = 0
    ∧ (running []).dirty = true ∧ State.reset.srun = false := by decide
theorem witness_PushResult : 0xFFFFFFFF < 2 ^ (running []).cfg.wordWidth
    ∧ (List.replicate 7 0).length < (running []).cfg.qdepth ∧ (running []).cfg.qdepth ≤ (List.replicate 8 0).length := by decide
theorem witness_StreamerTakesTheEnabledStep :
    let s := { running [.streamer true] with frameValid := true, dirty := false, stopReq := true, idx := 47 }
    State.reset.srun = false ∧ s.srun = true ∧ s.stopReq = true ∧ s.idx ≠ 0 ∧ s.frameValid = true ∧ s.q.length < s.cfg.qdepth
      ∧ s.frame[s.idx]? = some 0 ∧ 0 < 2 ^ s.cfg.wordWidth
      ∧ ¬ (({ s with stopReq := false, idx := 0 } : State).idx = 0 ∧ s.dirty = true) := by decide
theorem witness_StreamerTakesTheEnabledStep_rebuild : (running []).srun = true ∧ (running []).stopReq = false
    ∧ (running []).idx = 0 ∧ (running []).dirty = true
    ∧ (running []).cfg.qdepth ≤ ({ running [] with q := List.replicate 8 0, dirty := false } : State).q.length := by decide
theorem witness_StopRightAfterStartLeavesIdle :
    let s := { State.reset with cfg := sxCfg, turns := [.api .start, .api .stop, .streamer true, .tick] }
    s.run = false ∧ s.srun = false ∧ cfgLegal s.cfg = true := by decide
theorem witness_LoadOnlyWhileStopped : (running [.load sxCfg]).run = true ∧ State.reset.run = false
    ∧ State.reset.srun = false ∧ cfgLegal dfCfg = true ∧ State.reset.frameValid = false ∧ State.reset.cfg.prog = []
    ∧ ({ dfCfg with qdepth := 0 } : Cfg).paramsLegal = false ∧ tableLegal { dfCfg with prog := [] } = false := by decide
/-- Stopped, with a table loaded and a frame built: the load of another table for the same parameters, or of others. -/
def loaded (c : Cfg) : State := { State.reset with cfg := sxCfg, frameValid := true, turns := [.load c] }
theorem witness_LoadOnlyWhileStopped_loaded : (loaded sxCfg).cfg.prog ≠ [] ∧ (loaded sxCfg).frameValid = true
    ∧ cfgLegal { sxCfg with prog := [0x20310101#32] } = true
    ∧ Cfg.sameParams (loaded sxCfg).cfg { sxCfg with prog := [0x20310101#32] } = true
    ∧ Cfg.sameParams (loaded sxCfg).cfg dfCfg = false := by decide
theorem witness_ParametersAreFixedOnceLoaded : (loaded { sxCfg with prog := [0x20310101#32] }).cfg.prog ≠ []
    ∧ nextIs (step (loaded { sxCfg with prog := [0x20310101#32] })) (fun t => t.cfg.progLen == 1) = true := by decide
theorem witness_EncodeBlockResult : (List.replicate 112 0xFF#8).length = 112 := by decide
theorem witness_EncodeFrameLayout : (List.replicate 112 0xFF#8).length = 112 ∧ 15 < 16 ∧ 111 < 112 ∧ 7 < 8 := by decide
theorem witness_PolarityLaws : [true] ≠ [] ∧ 0 < [true].length ∧ 0 < 1 := by decide
theorem witness_PolarityMapResult : 0 < [true].length := by decide
theorem witness_PackResult : 1 ≤ 2 ∧ 2 % 2 = 0 ∧ [true, false].length % 2 = 0 ∧ 0 < (packBits [true, false] 2).length := by decide
theorem witness_UnpackInvertsPack : 1 ≤ 1 ∧ ∀ w ∈ [0, 1], w < 2 ^ 1 := by decide
theorem witness_IllFormedOperandsAreRefused : 7 % 2 ≠ 0 ∧ [true].length % 2 ≠ 0 ∧ ([] : List Byte).length ≠ 112
    ∧ (∃ w ∈ [16], 2 ^ 4 ≤ w) ∧ (running [.call (.push 0)]).turns = [.call (.push 0)]
    ∧ (Instr.push 0).isFunction = false ∧ (Instr.jmp h0 0#5).isFunction = false ∧ Instr.stop.isFunction = false := by decide
theorem witness_FrameImageSize : sxCfg.wordWidth = 32 ∧ sxCfg.variant = .twoLine ∧ dfCfg.variant = .differential := by decide
theorem witness_EveryStepKeepsTheInvariant :
    Inv { running [.tick] with q := [0xFFFFFFFF] } ∧ ∃ t, step { running [.tick] with q := [0xFFFFFFFF] } = .next t :=
  ⟨started_inv _ _ (by decide) (by simp), _, rfl⟩
/-- After construction, with the interleaving of scenario S7 to come. -/
def beforeLoad : State :=
  { State.reset with turns := [.load sxCfg, .api .start, .api .stop, .streamer false, .tick] }
theorem witness_EveryInterleavingFromResetKeepsTheInvariant :
    nextIs (Sys2Proof.core.run 2 beforeLoad) (fun t => t.run && t.srun) = true
      ∧ nextIs (Sys2Proof.core.run 5 beforeLoad) (fun t => !t.run && !t.srun) = true := by decide
theorem witness_SoundMachineNeverStops : Inv { running [.tick] with q := [] }
    ∧ (nextTurn { running [.tick] with q := [] }).unconditional = true
    ∧ Turn.unconditional (.command 0x50000#19) = true ∧ Turn.unconditional (.streamer true) = true :=
  ⟨started_inv _ _ (by decide) (by simp), by decide, by decide, by decide⟩
theorem witness_ConfigurationIsConstantWhileRunning : (∃ t, step (running [.tick]) = .next t)
    ∧ (running [.tick]).run = true ∧ ∀ c, nextTurn (running [.tick]) ≠ .load c := ⟨⟨_, rfl⟩, rfl, nofun⟩
theorem witness_OnlySetChannelWritesTheTable : ∃ t, step (running [.command 0x06F01#19]) = .next t
    ∧ Memory.read t.ct 111 ≠ Memory.read (running []).ct 111 := ⟨_, rfl, by decide⟩
theorem witness_DirtyIsClearedOnlyByTheRebuild : ∃ t, step (running [.streamer false]) = .next t
    ∧ (running [.streamer false]).dirty = true ∧ t.dirty = false := ⟨_, rfl, rfl, rfl⟩
theorem witness_FrameChangesOnlyBetweenPasses : (running [.streamer false]).srun = true
    ∧ ∃ t, step (running [.streamer false]) = .next t ∧ t.frame.head? ≠ (running [.streamer false]).frame.head? :=
  ⟨rfl, _, rfl, by decide +kernel⟩
theorem witness_QueueIsFirstInFirstOut : ∃ t, step { running [.tick] with q := [1, 2] } = .next t ∧ t.q = [2] :=
  ⟨_, rfl, rfl⟩

end Sys2Proof.Tests
end

/-! ## Encodings (30_encoding.md)

The row decoder by the lines of the opcode map (R84), the command decoder by the fields of a command word (R87, R88), and
the two ways a reserved word ends: a reserved row is refused (R85), a reserved command is rejected with `ConfigError`. -/

namespace Sys2Proof

/-! ### Row words (30_encoding.md R84) -/

/-- Two patterns that fix one bit differently have no word in common: this is why the lines of T-R84, which differ in
`op`, are disjoint. -/
theorem not_match_of_match {n : Nat} {w mask val mask' val' : BitVec n} (h : w &&& mask = val)
    (hdiff : mask &&& mask' &&& (val ^^^ val') ≠ 0#n) : w &&& mask' ≠ val' := by
  rintro rfl
  subst h
  refine hdiff (BitVec.eq_of_getLsbD_eq fun i _ => ?_)
  simp only [BitVec.getLsbD_and, BitVec.getLsbD_xor, BitVec.getLsbD_zero]
  cases w.getLsbD i with
  | false => simp
  | true => cases mask.getLsbD i <;> simp

section RowLines
variable {w : RowWord}

theorem decodeRow_of_nop_line (h : w &&& 0xE000FFFF#32 = 0x00000000#32) :
    decodeRow w = .ok (.nop (rowHead w)) := by
  rw [decodeRow, if_pos h]

theorem decodeRow_of_shift_line (h : w &&& 0xE000FEFC#32 = 0x20000000#32) :
    decodeRow w = .ok (.shift (rowHead w) (w.extractLsb' 0 2) (w.getLsbD 8)) := by
  simp [decodeRow, h, not_match_of_match h]

theorem decodeRow_of_setp_line (h : w &&& 0xE000FF00#32 = 0x40000000#32) :
    decodeRow w = .ok (.setp (rowHead w) (w.extractLsb' 0 8)) := by
  simp [decodeRow, h, not_match_of_match h]

theorem decodeRow_of_ldc_line (h : w &&& 0xE0000000#32 = 0x60000000#32) :
    decodeRow w = .ok (.ldc (rowHead w) (w.extractLsb' 0 16)) := by
  simp [decodeRow, h, not_match_of_match h]

theorem decodeRow_of_jmp_line (h : w &&& 0xE000FFE0#32 = 0x80000000#32) :
    decodeRow w = .ok (.jmp (rowHead w) (w.extractLsb' 0 5)) := by
  simp [decodeRow, h, not_match_of_match h]

theorem decodeRow_of_jbit_line (h : w &&& 0xE000FEE0#32 = 0xA0000000#32) :
    decodeRow w = .ok (.jbit (rowHead w) (w.getLsbD 8) (w.extractLsb' 0 5)) := by
  simp [decodeRow, h, not_match_of_match h]

theorem decodeRow_of_jctr_line (h : w &&& 0xE000FFE0#32 = 0xC0000000#32) :
    decodeRow w = .ok (.jctr (rowHead w) (w.extractLsb' 0 5)) := by
  simp [decodeRow, h, not_match_of_match h]

/-- `w` agrees with the match of `i`'s line of T-R84 under the line's mask; for `op` = 111, with the three bits that
R85 reserves. -/
def OnLineOf (w : RowWord) : Instr → Prop
  | .nop _ => w &&& 0xE000FFFF#32 = 0x00000000#32
  | .shift _ _ _ => w &&& 0xE000FEFC#32 = 0x20000000#32
  | .setp _ _ => w &&& 0xE000FF00#32 = 0x40000000#32
  | .ldc _ _ => w &&& 0xE0000000#32 = 0x60000000#32
  | .jmp _ _ => w &&& 0xE000FFE0#32 = 0x80000000#32
  | .jbit _ _ _ => w &&& 0xE000FEE0#32 = 0xA0000000#32
  | .jctr _ _ => w &&& 0xE000FFE0#32 = 0xC0000000#32
  | .rowReserved _ => w &&& 0xE0000000#32 = 0xE0000000#32
  | _ => False

/-- A row decodes only to the operation on whose line it stands, whatever the operands. -/
theorem onLineOf_of_decodeRow {i : Instr} (h : decodeRow w = .ok i) : OnLineOf w i := by
  unfold decodeRow at h
  repeat' split at h
  all_goals cases h
  all_goals assumption

end RowLines

/-! ### Command words (30_encoding.md R87, R88) -/

section CommandFields
variable (cmd : BitVec 3) (a v : BitVec 8)

@[simp] theorem cmdWord_a : (cmdWord cmd a v).extractLsb' 8 8 = a := by
  rw [cmdWord, BitVec.extractLsb'_append_eq_of_le (by omega)]
  exact BitVec.extractLsb'_append_eq_right

@[simp] theorem cmdWord_v : (cmdWord cmd a v).extractLsb' 0 8 = v := BitVec.extractLsb'_append_eq_right

theorem cmdWord_low16 : (cmdWord cmd a v).extractLsb' 0 16 = a ++ v := by
  rw [cmdWord, BitVec.append_assoc]
  exact BitVec.extractLsb'_append_eq_right

theorem append_low16 : cmd ++ (a ++ v) = cmdWord cmd a v := BitVec.append_assoc'

theorem cmdWord_bit0 : (cmdWord cmd a v).getLsbD 0 = v.getLsbD 0 := by
  rw [cmdWord, BitVec.getLsbD_append, if_pos (by decide)]

/-- A command word is the word of its fields. -/
theorem cmdWord_of_fields (w : CmdWord) :
    cmdWord (w.extractLsb' 16 3) (w.extractLsb' 8 8) (w.extractLsb' 0 8) = w := by
  rw [cmdWord, BitVec.extractLsb'_append_extractLsb'_eq_extractLsb' (by decide),
    BitVec.extractLsb'_append_extractLsb'_eq_extractLsb' (by decide)]
  exact BitVec.extractLsb'_eq_self

/-- Two command words agree when their fields do. -/
theorem cmdWord_eq_iff (w : CmdWord) :
    cmdWord cmd a v = w ↔ cmd = w.extractLsb' 16 3 ∧ a = w.extractLsb' 8 8 ∧ v = w.extractLsb' 0 8 := by
  constructor
  · rintro rfl
    exact ⟨(cmdWord_cmd cmd a v).symm, (cmdWord_a cmd a v).symm, (cmdWord_v cmd a v).symm⟩
  · rintro ⟨rfl, rfl, rfl⟩
    exact cmdWord_of_fields w

/-- A mask applies to the fields one by one. -/
theorem cmdWord_and (w : CmdWord) :
    cmdWord cmd a v &&& w
      = cmdWord (cmd &&& w.extractLsb' 16 3) (a &&& w.extractLsb' 8 8) (v &&& w.extractLsb' 0 8) := by
  conv_lhs => rw [← cmdWord_of_fields w]
  rw [cmdWord, cmdWord, BitVec.and_append, BitVec.and_append]
  rfl

/-- `v[7:1]` is zero when `v` is 0 or 1 (T-R87b, SET_TRACK_POWER). -/
theorem and_FE_eq_zero : v &&& 0xFE#8 = 0#8 ↔ v.toNat ≤ 1 := by decide +revert

/-- The command decoder by the fields of the word (30_encoding.md T-R87b, R88). -/
theorem decodeCommand_cmdWord :
    decodeCommand (cmdWord cmd a v) =
      if cmd = 0#3 then .ok (.setChannel a v)
      else if cmd = 1#3 ∧ a = 0#8 ∧ v.toNat ≤ 1 then .ok (.setTrackPower (v.getLsbD 0))
      else if cmd = 2#3 ∧ a = 0#8 ∧ v = 0#8 then .ok .start
      else if cmd = 3#3 ∧ a = 0#8 ∧ v = 0#8 then .ok .stop
      else if cmd = 4#3 ∧ a = 0#8 ∧ v = 0#8 then .ok .rebuild
      else if cmd = 5#3 then .ok (.cmdReserved5 (a ++ v))
      else if cmd = 6#3 then .ok (.cmdReserved6 (a ++ v))
      else if cmd = 7#3 then .ok (.cmdReserved7 (a ++ v))
      else .error .commandMustBeZero := by
  have hcmd : cmd &&& 7#3 = cmd := BitVec.and_allOnes
  have ha : a &&& 0xFF#8 = a := BitVec.and_allOnes
  rw [decodeCommand, cmdWord_a, cmdWord_v, cmdWord_low16, cmdWord_bit0]
  simp [cmdWord_and, cmdWord_eq_iff, hcmd, ha, and_FE_eq_zero]

end CommandFields

end Sys2Proof

namespace Sys2Proof.Machine

/-! ### Presented command words (30_encoding.md R88) -/

theorem presentCommand_of_error {w : CmdWord} {e : DecodeError} (s : State) (h : decodeCommand w = .error e) :
    presentCommand w s = .next (raiseConfigError .badCommand w s) := by
  rw [presentCommand, h]

theorem presentCommand_of_rebuild {w : CmdWord} (s : State) (h : decodeCommand w = .ok .rebuild) :
    presentCommand w s = .next (raiseConfigError .badCommand w s) := by
  rw [presentCommand, h]

theorem presentCommand_of_ok {w : CmdWord} {i : Instr} (s : State) (h : decodeCommand w = .ok i) (hi : i ≠ .rebuild) :
    presentCommand w s = exec i s := by
  rw [presentCommand, h]
  split
  · next he => cases he
  · next he => cases he; exact absurd rfl hi
  · next he => cases he; rfl

/-- Reserved by its fields (30_encoding.md R88), but for SET_CHANNEL's address: `cmd` 101 to 111, REBUILD, or a
must-be-zero field that is not zero. -/
def ReservedFields (cmd : BitVec 3) (a v : BitVec 8) : Prop :=
  cmd = 5#3 ∨ cmd = 6#3 ∨ cmd = 7#3 ∨ cmd = 4#3 ∨ cmd = 1#3 ∧ (a ≠ 0#8 ∨ 1 < v.toNat)
    ∨ (cmd = 2#3 ∨ cmd = 3#3) ∧ (a ≠ 0#8 ∨ v ≠ 0#8)

/-- What the decoder makes of a word reserved by its fields: a reserved command, REBUILD, or no command. -/
theorem decodeCommand_of_reservedFields {cmd : BitVec 3} {a v : BitVec 8} (h : ReservedFields cmd a v) :
    decodeCommand (cmdWord cmd a v) = .ok (.cmdReserved5 (a ++ v)) ∧ cmd = 5#3
    ∨ decodeCommand (cmdWord cmd a v) = .ok (.cmdReserved6 (a ++ v)) ∧ cmd = 6#3
    ∨ decodeCommand (cmdWord cmd a v) = .ok (.cmdReserved7 (a ++ v)) ∧ cmd = 7#3
    ∨ decodeCommand (cmdWord cmd a v) = .ok .rebuild
    ∨ decodeCommand (cmdWord cmd a v) = .error .commandMustBeZero := by
  rw [decodeCommand_cmdWord]
  rcases h with rfl | rfl | rfl | rfl | ⟨rfl, hz⟩ | ⟨rfl | rfl, hz⟩
  · simp
  · simp
  · simp
  · by_cases hz : a = 0#8 ∧ v = 0#8 <;> simp [hz]
  · have hz : ¬ (a = 0#8 ∧ v.toNat ≤ 1) := by rwa [not_and_or, not_le]
    simp [hz]
  · have hz : ¬ (a = 0#8 ∧ v = 0#8) := not_and_or.2 hz
    simp [hz]
  · have hz : ¬ (a = 0#8 ∧ v = 0#8) := not_and_or.2 hz
    simp [hz]

theorem presentCommand_of_reservedFields {cmd : BitVec 3} {a v : BitVec 8} (s : State)
    (h : ReservedFields cmd a v) :
    presentCommand (cmdWord cmd a v) s = .next (raiseConfigError .badCommand (cmdWord cmd a v) s) := by
  rcases decodeCommand_of_reservedFields h with ⟨hd, rfl⟩ | ⟨hd, rfl⟩ | ⟨hd, rfl⟩ | hd | hd
  · rw [presentCommand_of_ok s hd (by simp), ← append_low16]; rfl
  · rw [presentCommand_of_ok s hd (by simp), ← append_low16]; rfl
  · rw [presentCommand_of_ok s hd (by simp), ← append_low16]; rfl
  · exact presentCommand_of_rebuild s hd
  · exact presentCommand_of_error s hd

theorem presentCommand_of_badAddress {a : BitVec 8} (v : BitVec 8) (s : State) (h : 112 ≤ a.toNat) :
    presentCommand (cmdWord 0#3 a v) s = .next (raiseConfigError .badAddress (cmdWord 0#3 a v) s) := by
  have hd : decodeCommand (cmdWord 0#3 a v) = .ok (.setChannel a v) := by simp [decodeCommand_cmdWord]
  rw [presentCommand_of_ok s hd (by simp), exec, execSetChannel, if_neg (by simpa using h)]

/-! ### Reserved rows (30_encoding.md R85) -/

theorem runRow_of_not_wellFormed {i : Instr} {s : State} (h : RowHead) (f : State → State × BitVec 5)
    (hw : i.wellFormed s.cfg = false) : runRow i h f s = .refused .reservedRow := by
  simp [runRow, rowLegal, hw]

/-- A row that violates a value condition of R85 is refused whatever the row is. -/
theorem exec_of_not_wellFormed {i : Instr} {s : State} (hr : i.isRow = true) (hw : i.wellFormed s.cfg = false) :
    exec i s = .refused .reservedRow := by
  cases i with
  | nop | setp | ldc | jmp | jbit | jctr =>
    simp only [exec, execNop, execSetp, execLdc, execJmp, execJbit, execJctr, runRow_of_not_wellFormed _ _ hw]
  | shift h n d => simp [exec, execShift, rowLegal, hw]
  | rowReserved x => rfl
  | _ => cases hr

/-- The side-channel conditions of R85 concern every row. -/
theorem wellFormed_of_head_not_wellFormed {c : Cfg} {h : RowHead} (hh : h.wellFormed c = false) (n : BitVec 2)
    (d b : Bool) (lit : BitVec 8) (imm : BitVec 16) (t : BitVec 5) :
    ∀ i ∈ [Instr.nop h, .shift h n d, .setp h lit, .ldc h imm, .jmp h t, .jbit h b t, .jctr h t],
      i.isRow = true ∧ i.wellFormed c = false := by
  simp [Instr.isRow, Instr.wellFormed, hh]

theorem haltAccepted_iff (s : State) :
    haltAccepted s = true ↔ s.haltReq = true ∧ (s.pc = 0#5 ∨ s.stalled = true) := by
  simp [haltAccepted]

/-- At a row boundary that accepts no halt the tick runs the row at `PC` (40_timing_automaton.md R101). -/
theorem automatonTick_rowBoundary {s : State} (hrun : s.run = true) (hdly : s.dly = 0#11)
    (hhalt : ¬ (s.haltReq = true ∧ (s.pc = 0#5 ∨ s.stalled = true))) : automatonTick s = runFetchedRow s := by
  rw [← haltAccepted_iff] at hhalt
  simp [automatonTick, hrun, hdly, hhalt]

theorem runFetchedRow_of_error {s : State} {w : RowWord} {e : DecodeError} (hw : s.cfg.prog[s.pc.toNat]? = some w)
    (he : decodeRow w = .error e) : runFetchedRow s = .refused .reservedRow := by
  rw [runFetchedRow, hw]
  simp only [he]

/-- A table that holds a word which is no legal row is not well-formed (30_encoding.md R86). -/
theorem tableLegal_of_mem {c : Cfg} {w : RowWord} (hm : w ∈ c.prog) (hw : rowWordLegal c w = false) :
    tableLegal c = false := by
  have hall : c.prog.all (rowWordLegal c) = false := List.all_eq_false.2 ⟨w, hm, by simp [hw]⟩
  simp [tableLegal, hall]

theorem execStart_of_illFormedTable {s : State} (hp : s.cfg.paramsLegal = true) (ht : tableLegal s.cfg = false)
    (hrun : s.run = false) (hsrun : s.srun = false) : execStart s = .refused .illFormedTable := by
  simp [execStart, hp, ht, hrun, hsrun]

end Sys2Proof.Machine

namespace Sys2Proof.Encoding

open Sys2Proof.Machine

/-- Settles O2: each line's pattern decides all the tests of the decoder, and each answer of the decoder comes from its
own line's test. -/
theorem rowDecodeFollowsOpcodeMap : Obligations.RowDecodeFollowsOpcodeMap := by
  unfold Obligations.RowDecodeFollowsOpcodeMap
  rintro w h rfl
  exact ⟨decodeRow_of_nop_line, decodeRow_of_shift_line, decodeRow_of_setp_line, decodeRow_of_ldc_line,
    decodeRow_of_jmp_line, decodeRow_of_jbit_line, decodeRow_of_jctr_line, fun g n d b lit imm t =>
      ⟨onLineOf_of_decodeRow, onLineOf_of_decodeRow, onLineOf_of_decodeRow, onLineOf_of_decodeRow,
        onLineOf_of_decodeRow, onLineOf_of_decodeRow, onLineOf_of_decodeRow⟩⟩

/-- Settles O31, by what the decoder makes of the fields of each reserved word. -/
theorem reservedCommandWordsAreRejected : Obligations.ReservedCommandWordsAreRejected := by
  unfold Obligations.ReservedCommandWordsAreRejected
  intro s rest cmd a v hturn
  rw [step_of_turns_cons s _ rest hturn]
  refine ⟨presentCommand_of_reservedFields _, ?_⟩
  rintro ⟨rfl, ha⟩
  exact presentCommand_of_badAddress v _ ha

/-- Settles O16: each value condition makes the row not well-formed, whence it is refused; a tick reaches the decoder's
error, and START the table's. -/
theorem reservedRowsAreRefused : Obligations.ReservedRowsAreRefused := by
  unfold Obligations.ReservedRowsAreRefused
  intro s h
  refine ⟨fun x => rfl, ?shift, ?setp, ?branch, ?head, ?tick, ?start⟩
  case shift =>
    intro n d hn
    refine exec_of_not_wellFormed rfl ?_
    rcases hn with rfl | rfl | hn
    · simp [Instr.wellFormed]
    · simp [Instr.wellFormed]
    · simp [Instr.wellFormed, hn]
  case setp =>
    intro lit hlit
    exact exec_of_not_wellFormed rfl (by simp [Instr.wellFormed, hlit])
  case branch =>
    intro t b ht
    refine ⟨exec_of_not_wellFormed rfl ?_, exec_of_not_wellFormed rfl ?_, exec_of_not_wellFormed rfl ?_⟩
    all_goals simp [Instr.wellFormed, ht]
  case head =>
    intro hh n d b lit imm t i hi
    have hhead : h.wellFormed s.cfg = false := by
      rcases hh with ⟨hse, hsv⟩ | ⟨hse, hside⟩
      · simp [RowHead.wellFormed, hse, hsv]
      · simp [RowHead.wellFormed, hse, hside]
    obtain ⟨hrow, hwf⟩ := wellFormed_of_head_not_wellFormed hhead n d b lit imm t i hi
    exact exec_of_not_wellFormed hrow hwf
  case tick =>
    rintro w rest hturn hrun hdly hhalt hw ⟨e, he⟩
    rw [step_of_turns_cons s _ rest hturn]
    exact (automatonTick_rowBoundary (s := { s with turns := rest }) hrun hdly hhalt).trans
      (runFetchedRow_of_error hw he)
  case start =>
    intro w hm hw hp hrun hsrun
    exact execStart_of_illFormedTable hp (tableLegal_of_mem hm hw) hrun hsrun

end Sys2Proof.Encoding

/-! ## The timing automaton (40_timing_automaton.md)

What each row's first tick answers (R111 to R117), from the two lemmas that say what a legal row and a SHIFT after its
autopull do; and the tick that honours a halt (R104). -/

namespace Sys2Proof.Machine

/-! ### A well-formed row -/

theorem rowLegal_of_wellFormed {c : Cfg} {i : Instr} (hr : i.isRow = true) (hw : i.wellFormed c = true) :
    rowLegal c i = true := by
  rw [rowLegal, hr, hw, Bool.and_self]

/-- A well-formed row runs: its own effect stands between the common beginning and the common end of R101. -/
theorem runRow_of_wellFormed {i : Instr} {s : State} (hr : i.isRow = true) (hw : i.wellFormed s.cfg = true)
    (h : RowHead) (f : State → State × BitVec 5) :
    runRow i h f s = .next (endRow h (f (beginRow h s)).2 (f (beginRow h s)).1) :=
  runRow_legal i h f s (rowLegal_of_wellFormed hr hw)

/-! ### Levels and bits (10_state.md R16, 40_timing_automaton.md R112) -/

/-- A level that fits the pin group is driven as it is. -/
theorem pinLevel_of_lt {npins v : Nat} (hv : v < 2 ^ npins) : pinLevel npins v = BitVec.ofNat 2 v := by
  rw [pinLevel, Nat.mod_eq_of_lt hv]

theorem topBits_toNat_lt (width n : Nat) (sr : Word) : (topBits width n sr).toNat < 2 ^ n :=
  calc (topBits width n sr).toNat
      = sr / 2 ^ (width - n) % 2 ^ n % 2 ^ 2 := BitVec.toNat_ofNat ..
    _ ≤ sr / 2 ^ (width - n) % 2 ^ n := Nat.mod_le ..
    _ < 2 ^ n := Nat.mod_lt _ (Nat.two_pow_pos n)

/-- A symbol as wide as the pin group is driven as it is. -/
theorem pinLevel_topBits (width n : Nat) (sr : Word) :
    pinLevel n (topBits width n sr).toNat = topBits width n sr := by
  rw [pinLevel_of_lt (topBits_toNat_lt width n sr), BitVec.ofNat_toNat, BitVec.setWidth_eq]

theorem topBits_getLsbD (width n k : Nat) (sr : Word) (hk : k < 2) :
    (topBits width n sr).getLsbD k = (decide (k < n) && sr.testBit (width - n + k)) := by
  rw [topBits, BitVec.getLsbD_ofNat, decide_eq_true hk, Bool.true_and, Nat.testBit_mod_two_pow,
    Nat.testBit_div_two_pow, Nat.add_comm]

theorem shiftOut_testBit (width n k : Nat) (sr : Word) :
    (shiftOut width n sr).testBit k = (decide (n ≤ k ∧ k < width) && sr.testBit (k - n)) := by
  rw [shiftOut, Nat.testBit_mod_two_pow, Nat.testBit_mul_two_pow, Bool.decide_and, ← Bool.and_assoc,
    Bool.and_comm (decide (k < width))]

/-! ### SHIFT (40_timing_automaton.md R102, R112) -/

/-- The two ways an autopull leaves a state to shift in: bits remain, or the queue's head is pulled. -/
theorem autopull_eq_some_iff (s u : State) :
    autopull s = some u ↔
      s.srcnt ≠ s.cfg.wordWidth ∧ u = s
      ∨ s.srcnt = s.cfg.wordWidth ∧ ∃ w rest, s.q = w :: rest ∧ u = { s with sr := w, srcnt := 0, q := rest } := by
  rcases autopull_cases s with ⟨hc, ha⟩ | ⟨hc, hq, ha⟩ | ⟨hc, w, rest, hq, ha⟩
  · simp [ha, hc, eq_comm]
  · simp [ha, hc, hq]
  · simp [ha, hc, hq, eq_comm]

theorem autopull_cfg {s u : State} (ha : autopull s = some u) : u.cfg = s.cfg := by
  rcases (autopull_eq_some_iff s u).1 ha with ⟨_, rfl⟩ | ⟨_, w, rest, _, rfl⟩
  · rfl
  · rfl

/-- A well-formed SHIFT with bits to shift works on the state the autopull leaves. -/
theorem exec_shift_of_autopull {h : RowHead} {n : BitVec 2} {d : Bool} {s u : State}
    (hw : (Instr.shift h n d).wellFormed s.cfg = true) (ha : autopull s = some u) :
    exec (.shift h n d) s = .next (endRow h (seqPc u) (shiftEffect n.toNat d (beginRow h u))) := by
  have hwu : (Instr.shift h n d).wellFormed u.cfg = true := by rw [autopull_cfg ha, hw]
  rw [exec, execShift, if_pos (rowLegal_of_wellFormed rfl hw), ha]
  exact runRow_of_wellFormed rfl hwu h _

/-- Where the pin group is as wide as the symbol, SHIFT drives the symbol it latches. -/
theorem shiftEffect_of_npins {n : Nat} {t : State} (hn : n = t.cfg.npins) (d : Bool) :
    shiftEffect n d t =
      { t with
        sr := shiftOut t.cfg.wordWidth n t.sr, srcnt := t.srcnt + n, sym := topBits t.cfg.wordWidth n t.sr,
        pins := if d then topBits t.cfg.wordWidth n t.sr else t.pins } := by
  rw [shiftEffect, latchSymbol, ← hn, pinLevel_topBits]

/-- A legal configuration has a pin group as wide as its symbol, and words that hold at least one symbol. -/
theorem paramsLegal_symbol {c : Cfg} (hp : c.paramsLegal = true) :
    c.npins = c.symbolBits ∧ c.symbolBits ≤ c.wordWidth := by
  simp only [Cfg.paramsLegal, Bool.and_eq_true, decide_eq_true_eq, and_assoc] at hp
  obtain ⟨_, hpos, hdvd, hpins, _⟩ := hp
  exact ⟨hpins, Nat.le_of_dvd hpos (Nat.dvd_of_mod_eq_zero hdvd)⟩

theorem shift_wellFormed_symbol {c : Cfg} {h : RowHead} {n : BitVec 2} {d : Bool}
    (hw : (Instr.shift h n d).wellFormed c = true) : (n = 1#2 ∨ n = 2#2) ∧ n.toNat = c.symbolBits := by
  simp only [Instr.wellFormed, Bool.and_eq_true, Bool.or_eq_true, decide_eq_true_eq] at hw
  exact ⟨hw.1.2, hw.2⟩

/-! ### JCTR (40_timing_automaton.md R117) -/

/-- Where no borrow happens, decrementing a register is decrementing its number. -/
theorem ofNat_toNat_sub_one {w : Nat} {x : BitVec w} (hx : x ≠ 0#w) : BitVec.ofNat w (x.toNat - 1) = x - 1#w := by
  have hpos : 0 < x.toNat := Nat.pos_of_ne_zero fun h0 => hx (BitVec.eq_of_toNat_eq (by simpa using h0))
  have hw : 1 < 2 ^ w := by have := x.isLt; omega
  rw [← BitVec.ofNat_sub_ofNat_of_le _ _ hw hpos, BitVec.ofNat_toNat, BitVec.setWidth_eq]

/-! ### The halt (40_timing_automaton.md R104) -/

/-- At a row boundary that accepts a halt the tick is the halt. -/
theorem automatonTick_halt {s : State} (hrun : s.run = true) (hdly : s.dly = 0#11) (ha : haltAccepted s = true) :
    automatonTick s = .next (halt s) := by
  simp [automatonTick, hrun, hdly, ha]

/-- No row writes `RUN`. -/
theorem exec_row_run {i : Instr} {s t : State} (hr : i.isRow = true) (h : exec i s = .next t) : t.run = s.run := by
  obtain ⟨hwrites, _⟩ := exec_row_next i s t hr h
  rw [RowWrites] at hwrites
  rw [hwrites]

/-- Only the halt clears `RUN`: a running automaton runs on after every other tick. -/
theorem automatonTick_runs_on {s t : State} (hrun : s.run = true) (hno : ¬ (s.dly = 0#11 ∧ haltAccepted s = true))
    (ht : automatonTick s = .next t) : t.run = true := by
  rcases automatonTick_next s t ht with
    ⟨hstopped, _⟩ | ⟨_, _, rfl⟩ | ⟨_, hdly, ha, _⟩ | ⟨_, _, _, w, i, _, hi, hexec⟩
  · rw [hrun] at hstopped; cases hstopped
  · exact hrun
  · exact absurd ⟨hdly, ha⟩ hno
  · rw [exec_row_run (decodeRow_isRow w i hi) hexec, hrun]

end Sys2Proof.Machine

namespace Sys2Proof.TimingAutomaton

open Sys2Proof.Machine

/-- Settles O19: a tick under the rule's condition is the halt, and no other tick clears `RUN`. -/
theorem haltAtCellBoundaryOnly : Obligations.HaltAtCellBoundaryOnly := by
  unfold Obligations.HaltAtCellBoundaryOnly
  intro s rest hturn hrun hreq
  rw [step_of_turns_cons s _ rest hturn]
  constructor
  · rintro ⟨hdly, hplace⟩
    exact automatonTick_halt (s := { s with turns := rest }) hrun hdly ((haltAccepted_iff _).2 ⟨hreq, hplace⟩)
  · intro hno t ht
    refine automatonTick_runs_on (s := { s with turns := rest }) hrun ?_ ht
    rintro ⟨hdly, ha⟩
    obtain ⟨_, hplace⟩ := (haltAccepted_iff _).1 ha
    exact hno ⟨hdly, hplace⟩

/-- Settles O8: NOP has no effect between the common beginning and end of a row. -/
theorem nopResult : Obligations.NopResult := by
  unfold Obligations.NopResult
  intro h s hw
  rw [exec, execNop, runRow_of_wellFormed rfl hw]
  rfl

/-- Settles O9: the symbol is the top bits of the register the autopull leaves, and the rest of it moves up. -/
theorem shiftResult : Obligations.ShiftResult := by
  unfold Obligations.ShiftResult
  intro h n d s u hp hw hpull
  obtain ⟨hpins, hwidth⟩ := paramsLegal_symbol hp
  obtain ⟨hn, hsym⟩ := shift_wellFormed_symbol hw
  refine ⟨topBits s.cfg.wordWidth n.toNat u.sr, shiftOut s.cfg.wordWidth n.toNat u.sr, ?low, ?high,
    fun k => shiftOut_testBit .., ?state⟩
  case low =>
    have hpos : 0 < n.toNat := by rcases hn with rfl | rfl <;> decide
    rw [topBits_getLsbD _ _ _ _ (by decide), decide_eq_true hpos, Bool.true_and, Nat.add_zero]
  case high =>
    rw [topBits_getLsbD _ _ _ _ (by decide)]
    rcases hn with rfl | rfl
    · rfl
    · have htwo : 2 ≤ s.cfg.wordWidth := hsym.trans_le hwidth
      have hbit : s.cfg.wordWidth - 2 + 1 = s.cfg.wordWidth - 1 := by omega
      rw [← hbit]
      rfl
  case state =>
    have hnpins : n.toNat = s.cfg.npins := hsym.trans hpins.symm
    have ha : autopull s = some u := (autopull_eq_some_iff s u).2 hpull
    rw [← autopull_cfg ha] at hnpins
    rw [exec_shift_of_autopull hw ha, shiftEffect_of_npins (t := beginRow h u) hnpins]
    rcases hpull with ⟨_, rfl⟩ | ⟨_, w, rest, _, rfl⟩
    · rfl
    · rfl

/-- Settles O11: a well-formed literal fits the pin group, so cutting it to `NPINS` bits loses nothing. -/
theorem setpResult : Obligations.SetpResult := by
  unfold Obligations.SetpResult
  intro h lit s _ hw
  have hlit : lit.toNat < 2 ^ s.cfg.npins := by
    simp only [Instr.wellFormed, Bool.and_eq_true, decide_eq_true_eq] at hw
    exact hw.2
  have hlevel : pinLevel s.cfg.npins lit.toNat = lit.extractLsb' 0 2 := pinLevel_of_lt hlit
  rw [exec, execSetp, runRow_of_wellFormed rfl hw, ← hlevel]
  rfl

/-- Settles O12: LDC's own effect is the write of `CTR`. -/
theorem ldcResult : Obligations.LdcResult := by
  unfold Obligations.LdcResult
  intro h imm s hw
  rw [exec, execLdc, runRow_of_wellFormed rfl hw]
  rfl

/-- Settles O13: JMP's own effect is its answer, the target in place of the successor row. -/
theorem jmpResult : Obligations.JmpResult := by
  unfold Obligations.JmpResult
  intro h target s hw
  rw [exec, execJmp, runRow_of_wellFormed rfl hw]
  rfl

/-- Settles O14: JBIT's own effect is its answer, chosen by `BIT`. -/
theorem jbitResult : Obligations.JbitResult := by
  unfold Obligations.JbitResult
  intro h b target s hw
  rw [exec, execJbit, runRow_of_wellFormed rfl hw]
  rfl

/-- Settles O15, by whether the counter is zero. -/
theorem jctrResult : Obligations.JctrResult := by
  unfold Obligations.JctrResult
  intro h target s hw
  rw [exec, execJctr, runRow_of_wellFormed rfl hw]
  by_cases hc : s.ctr = 0#16
  · have hkeep : BitVec.ofNat 16 (s.ctr.toNat - 1) = s.ctr := by rw [hc]; rfl
    rw [beginRow_ctr, if_pos hc, if_pos hc, hkeep]
    rfl
  · rw [beginRow_ctr, if_neg hc, if_neg hc, ofNat_toNat_sub_one hc]
    rfl

end Sys2Proof.TimingAutomaton

/-! ## The Frame Encoder (42_frame_encoder.md)

What a bit sequence is as a number, bit by bit; the byte format and the header from that (R150 to R152); and the
polarity mapping symbol by symbol, from which its laws follow (R156, R157). -/

namespace Sys2Proof.Machine

/-! ### A bit sequence as a number (00_scope.md R8) -/

theorem bitsVal_append_singleton (b : Bits) (x : Bool) : bitsVal (b ++ [x]) = Nat.bit x (bitsVal b) := by
  rw [Nat.bit_val, bitsVal, List.foldl_append]
  rfl

/-- The last bit of a sequence is bit 0 of its value. -/
theorem bitsVal_testBit (b : Bits) (i : Nat) : (bitsVal b).testBit i = b.reverse.getD i false := by
  induction b using List.reverseRecOn generalizing i with
  | nil => simp [bitsVal]
  | append_singleton b x ih =>
    rw [bitsVal_append_singleton, List.reverse_concat]
    cases i with
    | zero => exact Nat.testBit_bit_zero x (bitsVal b)
    | succ i => rw [Nat.testBit_bit_succ, ih, List.getD_cons_succ]

theorem ofNat_bitsVal_getLsbD (n : Nat) (b : Bits) (i : Nat) :
    (BitVec.ofNat n (bitsVal b)).getLsbD i = (decide (i < n) && b.reverse.getD i false) := by
  rw [BitVec.getLsbD_ofNat, bitsVal_testBit]

/-- A bit vector is the value of its own bits, the most significant first. -/
theorem ofNat_bitsVal_bits {n : Nat} (x : BitVec n) :
    BitVec.ofNat n (bitsVal ((List.range n).map x.getLsbD).reverse) = x := by
  refine BitVec.eq_of_getLsbD_eq fun i hi => ?_
  rw [ofNat_bitsVal_getLsbD, List.reverse_reverse]
  simp [hi]

theorem bitsVal_lt (b : Bits) : bitsVal b < 2 ^ b.length := by
  refine Nat.lt_pow_two_of_testBit _ fun i hi => ?_
  rw [bitsVal_testBit, List.getD_eq_default _ _ (by simpa using hi)]

/-! ### The byte format (30_encoding.md R71, 42_frame_encoder.md R150, R151) -/

theorem exec_encodeByte (v : Byte) (s : State) :
    exec (.encodeByte v) s = .next { s with reply := .bits (encodeByte v) } := rfl

theorem exec_decodeByte (x : BitVec 12) (s : State) :
    exec (.decodeByte x) s = .next { s with reply := .byte (decodeByte x) } := rfl

/-- Bit `i` of a decoded value is the data bit of the operand that R151 names for it. -/
theorem decodeByte_getLsbD (x : BitVec 12) (i : Nat) :
    (decodeByte x).getLsbD i
      = (decide (i < 8) && [x.getLsbD 1, x.getLsbD 2, x.getLsbD 4, x.getLsbD 5,
          x.getLsbD 7, x.getLsbD 8, x.getLsbD 10, x.getLsbD 11].getD i false) :=
  ofNat_bitsVal_getLsbD 8 _ i

/-- The pattern of an encoded value: its data bits, with a 1 below each pair. -/
theorem encodeByte_pattern_getLsbD (v : Byte) (i : Nat) :
    (BitVec.ofNat 12 (bitsVal (encodeByte v))).getLsbD i
      = (decide (i < 12) && [true, v.getLsbD 0, v.getLsbD 1, true, v.getLsbD 2, v.getLsbD 3,
          true, v.getLsbD 4, v.getLsbD 5, true, v.getLsbD 6, v.getLsbD 7].getD i false) :=
  ofNat_bitsVal_getLsbD 12 _ i

theorem encodeByte_pattern_toNat (v : Byte) :
    (BitVec.ofNat 12 (bitsVal (encodeByte v))).toNat = bitsVal (encodeByte v) := by
  rw [BitVec.toNat_ofNat]
  exact Nat.mod_eq_of_lt (bitsVal_lt (encodeByte v))

theorem decodeByte_encodeByte (v : Byte) : decodeByte (BitVec.ofNat 12 (bitsVal (encodeByte v))) = v := by
  rw [decodeByte]
  simp only [encodeByte_pattern_getLsbD]
  exact ofNat_bitsVal_bits v

/-- The stuffing positions 2, 5, 8, 11 of a pattern, bits 9, 6, 3, 0 of the operand, hold 1 (R151). -/
def Stuffed (x : BitVec 12) : Prop :=
  x.getLsbD 9 = true ∧ x.getLsbD 6 = true ∧ x.getLsbD 3 = true ∧ x.getLsbD 0 = true

theorem stuffed_encodeByte (v : Byte) : Stuffed (BitVec.ofNat 12 (bitsVal (encodeByte v))) :=
  ⟨encodeByte_pattern_getLsbD v 9, encodeByte_pattern_getLsbD v 6, encodeByte_pattern_getLsbD v 3,
    encodeByte_pattern_getLsbD v 0⟩

/-- Where the stuffing is right, the data bits alone give the pattern back. -/
theorem encodeByte_decodeByte {x : BitVec 12} (hx : Stuffed x) :
    BitVec.ofNat 12 (bitsVal (encodeByte (decodeByte x))) = x := by
  obtain ⟨h9, h6, h3, h0⟩ := hx
  refine BitVec.eq_of_getLsbD_eq fun i hi => ?_
  rw [encodeByte_pattern_getLsbD]
  simp only [decodeByte_getLsbD]
  interval_cases i <;> simp [h9, h6, h3, h0]

theorem exists_encodeByte_iff (x : BitVec 12) : (∃ v, bitsVal (encodeByte v) = x.toNat) ↔ Stuffed x := by
  constructor
  · rintro ⟨v, hv⟩
    have hx : BitVec.ofNat 12 (bitsVal (encodeByte v)) = x := by rw [hv, BitVec.ofNat_toNat, BitVec.setWidth_eq]
    exact hx ▸ stuffed_encodeByte v
  · intro hx
    exact ⟨decodeByte x, by rw [← encodeByte_pattern_toNat, encodeByte_decodeByte hx]⟩

/-! ### The header (30_encoding.md R77, 42_frame_encoder.md R152) -/

theorem exec_encodeHeader (b : BitVec 4) (tp : Bool) (s : State) :
    exec (.encodeHeader b tp) s = .next { s with reply := .bits (encodeHeader s.cfg.addrInvert b tp) } := rfl

theorem addressField_toNat (invert : Bool) (b : BitVec 4) :
    (addressField invert b).toNat = if invert then 15 - b.toNat else b.toNat := by
  cases invert with
  | false => rfl
  | true => exact BitVec.toNat_not

theorem addressField_addressField (invert : Bool) (b : BitVec 4) :
    addressField invert (addressField invert b) = b := by
  cases invert with
  | false => rfl
  | true => exact BitVec.not_not

theorem headerIndex_encodeHeader (invert : Bool) (b : BitVec 4) (tp : Bool) :
    headerIndex invert (encodeHeader invert b tp) = b := by
  have hfield : headerIndex invert (encodeHeader invert b tp) = addressField invert (addressField invert b) :=
    congrArg (addressField invert) (ofNat_bitsVal_bits (addressField invert b))
  rw [hfield, addressField_addressField]

theorem encodeHeader_set_power (invert : Bool) (b : BitVec 4) :
    (encodeHeader invert b false).set 4 true = encodeHeader invert b true := rfl

/-! ### A block (42_frame_encoder.md R153) -/

theorem exec_encodeBlock_of_length {ct : List Byte} (hct : ct.length = Config.nChannels) (b : BitVec 4) (tp : Bool)
    (s : State) :
    exec (.encodeBlock b ct tp) s = .next { s with reply := .bits (encodeBlock s.cfg.addrInvert b ct tp) } := by
  have hw : (Instr.encodeBlock b ct tp).wellFormed s.cfg = true := decide_eq_true hct
  rw [exec, execEncodeBlock, if_pos hw, replyWith]

/-- The interleave of R153 written out: slot `k` of block `b` is channel `b + 16k`. -/
theorem encodeBlock_eq_slots (invert : Bool) (b : BitVec 4) (ct : List Byte) (tp : Bool) :
    encodeBlock invert b ct tp = encodeHeader invert b tp
      ++ encodeByte (ct.getD b.toNat 0#8) ++ encodeByte (ct.getD (b.toNat + 16) 0#8)
      ++ encodeByte (ct.getD (b.toNat + 32) 0#8) ++ encodeByte (ct.getD (b.toNat + 48) 0#8)
      ++ encodeByte (ct.getD (b.toNat + 64) 0#8) ++ encodeByte (ct.getD (b.toNat + 80) 0#8)
      ++ encodeByte (ct.getD (b.toNat + 96) 0#8) := by
  have hslots : List.range Config.slots = [0, 1, 2, 3, 4, 5, 6] := rfl
  simp only [encodeBlock, hslots, List.flatMap_cons, List.flatMap_nil, List.append_nil, List.append_assoc,
    Nat.reduceMul, Nat.add_zero]

/-! ### The polarity mapping (30_encoding.md R75, 42_frame_encoder.md R156, R157) -/

theorem exec_polarityMap (bits : Bits) (s : State) :
    exec (.polarityMap bits) s = .next { s with reply := .bits (mapPolarity s.cfg.polInit bits) } := rfl

theorem polaritySymbol_eq (pol : Bool) : polaritySymbol pol = [pol, !pol] := by
  cases pol with
  | false => rfl
  | true => rfl

theorem finalPolarity_eq_foldl (pol : Bool) (bits : Bits) : finalPolarity pol bits = bits.foldl Bool.xor pol := by
  induction bits generalizing pol with
  | nil => rfl
  | cons b bits ih => exact ih (pol ^^ b)

theorem finalPolarity_take_succ (pol : Bool) (bits : Bits) (i : Nat) :
    finalPolarity pol (bits.take (i + 1)) = (finalPolarity pol (bits.take i) ^^ bits.getD i false) := by
  simp only [finalPolarity_eq_foldl, List.take_add_one, List.foldl_append, List.getD_eq_getElem?_getD]
  cases bits[i]? with
  | none => exact (Bool.xor_false _).symm
  | some b => rfl

/-- The polarity after the last symbol tells whether the number of ones is odd. -/
theorem finalPolarity_eq_parity (pol : Bool) (bits : Bits) :
    finalPolarity pol bits = (pol ^^ decide (bits.count true % 2 = 1)) := by
  induction bits generalizing pol with
  | nil => exact (Bool.xor_false pol).symm
  | cons b bits ih =>
    rw [finalPolarity, ih]
    cases b with
    | false => simp
    | true =>
      have hodd : decide ((bits.count true + 1) % 2 = 1) = !decide (bits.count true % 2 = 1) := by
        rw [← decide_not]
        exact decide_eq_decide.2 (by omega)
      rw [List.count_cons_self, hodd, Bool.xor_assoc, Bool.true_xor]

/-- Symbol `i` of a mapping is that of the polarity after the first `i + 1` bits (R156). -/
theorem mapPolarity_symbol (pol : Bool) {bits : Bits} {i : Nat} (hi : i < bits.length) :
    ((mapPolarity pol bits).drop (2 * i)).take 2 = polaritySymbol (finalPolarity pol (bits.take (i + 1))) := by
  induction bits generalizing pol i with
  | nil => cases hi
  | cons b bits ih =>
    cases i with
    | zero => rfl
    | succ i => exact ih (pol ^^ b) (Nat.lt_of_succ_lt_succ hi)

theorem mapPolarity_getElem?_first (pol : Bool) {bits : Bits} {i : Nat} (hi : i < bits.length) :
    (mapPolarity pol bits)[2 * i]? = some (finalPolarity pol (bits.take (i + 1))) := by
  have hfirst : (((mapPolarity pol bits).drop (2 * i)).take 2)[0]? = (mapPolarity pol bits)[2 * i]? := by simp
  rw [← hfirst, mapPolarity_symbol pol hi, polaritySymbol_eq]
  rfl

theorem mapPolarity_getElem?_second (pol : Bool) {bits : Bits} {i : Nat} (hi : i < bits.length) :
    (mapPolarity pol bits)[2 * i + 1]? = some (!finalPolarity pol (bits.take (i + 1))) := by
  have hsecond : (((mapPolarity pol bits).drop (2 * i)).take 2)[1]? = (mapPolarity pol bits)[2 * i + 1]? := by simp
  rw [← hsecond, mapPolarity_symbol pol hi, polaritySymbol_eq]
  rfl

/-- Symbol `i` differs from the one before it, or from the starting polarity, exactly if bit `i` is 1. -/
theorem mapPolarity_toggles (pol : Bool) {bits : Bits} {i : Nat} (hi : i < bits.length) :
    ((mapPolarity pol bits).getD (2 * i) false
      != (if i = 0 then pol else (mapPolarity pol bits).getD (2 * (i - 1)) false)) = bits.getD i false := by
  have hbefore : (if i = 0 then pol else (mapPolarity pol bits).getD (2 * (i - 1)) false)
      = finalPolarity pol (bits.take i) := by
    cases i with
    | zero => rfl
    | succ k =>
      rw [if_neg (Nat.succ_ne_zero k), Nat.add_sub_cancel, List.getD_eq_getElem?_getD,
        mapPolarity_getElem?_first pol (Nat.lt_of_succ_lt hi), Option.getD_some]
  rw [hbefore, List.getD_eq_getElem?_getD, mapPolarity_getElem?_first pol hi, Option.getD_some,
    finalPolarity_take_succ, Bool.bne_eq_xor, Bool.xor_comm]
  exact Bool.bne_self_left _ _

/-- Counting the places of the ones counts the ones. -/
theorem countP_range_getD (bits : Bits) :
    (List.range bits.length).countP (fun i => bits.getD i false) = bits.count true := by
  have hbits : (List.range bits.length).map (fun i => bits.getD i false) = bits := by
    refine List.ext_getElem (by simp) fun i _ hi => ?_
    simp [hi]
  conv_rhs => rw [← hbits, List.count, List.countP_map]
  simp [Function.comp_def]

/-- An all-zero input never toggles (R157). -/
theorem mapPolarity_replicate_false (pol : Bool) (n : Nat) :
    mapPolarity pol (List.replicate n false) = (List.replicate n (polaritySymbol pol)).flatten := by
  induction n with
  | zero => rfl
  | succ n ih =>
    rw [List.replicate_succ, List.replicate_succ, mapPolarity, Bool.xor_false, ih, List.flatten_cons]

/-- An all-one input toggles at every symbol (R157). -/
theorem mapPolarity_replicate_true_symbol (pol : Bool) {n i : Nat} (hi : i < n) :
    ((mapPolarity pol (List.replicate n true)).drop (2 * i)).take 2
      = polaritySymbol (pol ^^ decide (i % 2 = 0)) := by
  have hparity : (i + 1) % 2 = 1 ↔ i % 2 = 0 := by omega
  rw [mapPolarity_symbol pol (by rwa [List.length_replicate]), List.take_replicate, Nat.min_eq_left hi,
    finalPolarity_eq_parity, List.count_replicate_self, decide_eq_decide.2 hparity]

end Sys2Proof.Machine

namespace Sys2Proof.FrameEncoder

open Sys2Proof.Machine

/-- Settles O39: encoding and decoding place the data bits inversely, and the pattern has only the stuffing besides. -/
theorem decodeByteInvertsEncodeByte : Obligations.DecodeByteInvertsEncodeByte := by
  unfold Obligations.DecodeByteInvertsEncodeByte
  refine ⟨fun x s => ⟨decodeByte x, exec_decodeByte x s, ?_⟩, decodeByte_encodeByte, exists_encodeByte_iff⟩
  exact ⟨decodeByte_getLsbD x 7, decodeByte_getLsbD x 6, decodeByte_getLsbD x 5, decodeByte_getLsbD x 4,
    decodeByte_getLsbD x 3, decodeByte_getLsbD x 2, decodeByte_getLsbD x 1, decodeByte_getLsbD x 0⟩

/-- Settles O43: the mapping emits, at each bit, the symbol of the polarity reached there. -/
theorem polarityMapResult : Obligations.PolarityMapResult := by
  unfold Obligations.PolarityMapResult
  intro bits s
  refine ⟨mapPolarity s.cfg.polInit bits, exec_polarityMap bits s, mapPolarity_length _ _, fun i hi => ?_⟩
  rw [← finalPolarity_eq_foldl]
  exact ⟨mapPolarity_getElem?_first _ hi, mapPolarity_getElem?_second _ hi⟩

/-- Settles O44: each law reads off symbol `i` as the polarity after `i + 1` bits, whose parity is that of the ones. -/
theorem polarityLaws : Obligations.PolarityLaws := by
  unfold Obligations.PolarityLaws
  intro pol bits
  refine ⟨finalPolarity_eq_parity pol bits, ?last, ?toggles, ?symbols, mapPolarity_replicate_false pol,
    fun n i => mapPolarity_replicate_true_symbol pol⟩
  case last =>
    intro hne
    have hpos : 0 < bits.length := List.length_pos_iff.2 hne
    rw [mapPolarity_getElem?_first pol (Nat.sub_lt hpos Nat.one_pos), Nat.sub_add_cancel hpos, List.take_length]
  case toggles =>
    rw [← countP_range_getD bits]
    refine List.countP_congr fun i hi => ?_
    rw [mapPolarity_toggles pol (List.mem_range.1 hi)]
  case symbols =>
    intro i hi
    rw [mapPolarity_symbol pol hi, polaritySymbol_eq]
    cases finalPolarity pol (bits.take (i + 1)) with
    | false => exact .inr rfl
    | true => exact .inl rfl

/-- Settles O38: the call replies with the format of R150. -/
theorem encodeByteResult : Obligations.EncodeByteResult := by
  unfold Obligations.EncodeByteResult
  intro v s
  rw [exec_encodeByte, encodeByte]

/-- Settles O40: the header carries the address field, which is its own inverse. -/
theorem encodeHeaderResult : Obligations.EncodeHeaderResult := by
  unfold Obligations.EncodeHeaderResult
  intro b tp s
  exact ⟨⟨addressField s.cfg.addrInvert b, addressField_toNat _ b, exec_encodeHeader b tp s⟩,
    fun inv => encodeHeader_set_power inv b, fun inv => headerIndex_encodeHeader inv b tp⟩

/-- Settles O41: with 112 values the call is well-formed, and the block is its seven slots written out. -/
theorem encodeBlockResult : Obligations.EncodeBlockResult := by
  unfold Obligations.EncodeBlockResult
  intro b ct tp s hct
  exact ⟨encodeBlock s.cfg.addrInvert b ct tp, exec_encodeBlock_of_length hct b tp s, encodeBlock_length _ b ct tp,
    encodeBlock_eq_slots _ b ct tp⟩

end Sys2Proof.FrameEncoder


/-! ## The Word Packer (43_word_packer.md)

One chunk as a word, bit by bit and in size; the words of a sequence from that (R170). -/

namespace Sys2Proof.Machine

/-- Bit `i` of a chunk, counted from the most significant bit of its word; past the chunk's end the word has zeros. -/
theorem packChunk_testBit {width i : Nat} {chunk : Bits} (hlen : chunk.length ≤ width) (hi : i < width) :
    (packChunk width chunk).testBit (width - 1 - i) = chunk.getD i false := by
  rw [packChunk, Nat.testBit_mul_two_pow, bitsVal_testBit]
  by_cases hic : i < chunk.length
  · have hplace : width - chunk.length ≤ width - 1 - i := by omega
    have hpos : width - 1 - i - (width - chunk.length) < chunk.length := by omega
    have hmirror : chunk.length - 1 - (width - 1 - i - (width - chunk.length)) = i := by omega
    rw [decide_eq_true hplace, Bool.true_and, List.getD_eq_getElem?_getD, List.getElem?_reverse hpos, hmirror,
      ← List.getD_eq_getElem?_getD]
  · have hpad : ¬ width - chunk.length ≤ width - 1 - i := by omega
    rw [decide_eq_false hpad, Bool.false_and, List.getD_eq_default _ _ (Nat.le_of_not_lt hic)]

theorem packChunk_lt {width : Nat} {chunk : Bits} (hlen : chunk.length ≤ width) :
    packChunk width chunk < 2 ^ width :=
  calc bitsVal chunk * 2 ^ (width - chunk.length)
      < 2 ^ chunk.length * 2 ^ (width - chunk.length) :=
        Nat.mul_lt_mul_of_pos_right (bitsVal_lt chunk) (Nat.two_pow_pos _)
    _ = 2 ^ width := by rw [← Nat.pow_add, Nat.add_sub_cancel' hlen]

theorem packChunks_lt (width n : Nat) (bits : Bits) : ∀ w ∈ packChunks width n bits, w < 2 ^ width := by
  induction n generalizing bits with
  | zero => exact List.forall_mem_nil _
  | succ n ih => exact List.forall_mem_cons.2 ⟨packChunk_lt (List.length_take_le _ _), ih _⟩

theorem packChunks_getD {width n j : Nat} (bits : Bits) (hj : j < n) :
    (packChunks width n bits).getD j 0 = packChunk width ((bits.drop (j * width)).take width) := by
  induction n generalizing bits j with
  | zero => cases hj
  | succ n ih =>
    cases j with
    | zero => rw [packChunks, List.getD_cons_zero, Nat.zero_mul, List.drop_zero]
    | succ j =>
      rw [packChunks, List.getD_cons_succ, ih _ (Nat.lt_of_succ_lt_succ hj), List.drop_drop, Nat.succ_mul, Nat.add_comm]

theorem packBits_lt (bits : Bits) (width : Nat) : ∀ w ∈ packBits bits width, w < 2 ^ width :=
  packChunks_lt width _ bits

/-- Bit `i` of word `j`, counted from the most significant, is bit `j * width + i` of the sequence (R170). -/
theorem packBits_testBit {bits : Bits} {width j i : Nat} (hj : j < (packBits bits width).length) (hi : i < width) :
    ((packBits bits width).getD j 0).testBit (width - 1 - i) = bits.getD (j * width + i) false := by
  rw [packBits_length] at hj
  rw [packBits, packChunks_getD bits hj, packChunk_testBit (List.length_take_le _ _) hi]
  simp only [List.getD_eq_getElem?_getD, List.getElem?_take_of_lt hi, List.getElem?_drop]

/-- Operands of R172's domain are answered. -/
theorem exec_pack_of_domain {bits : Bits} {width u : Nat} (s : State) (hwidth : 1 ≤ width) (hu : u = 1 ∨ u = 2)
    (hw : width % u = 0) (hb : bits.length % u = 0) :
    exec (.pack bits width u) s = .next { s with reply := .words (packBits bits width) } := by
  have hwf : (Instr.pack bits width u).wellFormed s.cfg = true := by
    simp [Instr.wellFormed, hwidth, hu, hw, hb]
  rw [exec, execPack, if_pos hwf, replyWith]

end Sys2Proof.Machine

namespace Sys2Proof.WordPacker

open Sys2Proof.Machine

/-- Settles O45: the reply is the chunks' words, each read off bit by bit. -/
theorem packResult : Obligations.PackResult := by
  unfold Obligations.PackResult
  intro bits width u s hwidth hu hw hb
  exact ⟨packBits bits width, exec_pack_of_domain s hwidth hu hw hb, packBits_length bits width,
    packBits_lt bits width, fun _ _ => packBits_testBit⟩

end Sys2Proof.WordPacker

/-! ## The commands (44_streamer_commands.md)

What each command answers in each of its branches (R180, R182, R183); the statements put the branches together. -/

namespace Sys2Proof.Machine

/-! ### SET_CHANNEL (44_streamer_commands.md R180) -/

theorem exec_setChannel_of_channel {a : BitVec 8} (ha : a.toNat < Config.nChannels) (v : Byte) (s : State) :
    exec (.setChannel a v) s = .next (commandOk (markDirty { s with ct := Memory.write s.ct a.toNat v })) := by
  rw [exec, execSetChannel, if_pos ha]

theorem exec_setChannel_of_badAddress {a : BitVec 8} (ha : ¬ a.toNat < Config.nChannels) (v : Byte) (s : State) :
    exec (.setChannel a v) s = .next (raiseConfigError .badAddress (cmdWord 0b000#3 a v) s) := by
  rw [exec, execSetChannel, if_neg ha]

/-! ### START (44_streamer_commands.md R182) -/

/-- While anything runs START is dropped, whatever the configuration. -/
theorem exec_start_of_running {s : State} (h : s.srun = true ∨ s.run = true) :
    exec .start s = .next (commandOk s) := by
  rw [exec, execStart, if_pos (Bool.or_eq_true_iff.2 h)]

theorem exec_start_of_stopped {s : State} (hsrun : s.srun = false) (hrun : s.run = false)
    (hp : s.cfg.paramsLegal = true) (ht : tableLegal s.cfg = true) :
    exec .start s = .next (commandOk (startRun s)) := by
  simp [exec, execStart, hsrun, hrun, hp, ht]

/-! ### STOP (44_streamer_commands.md R183) -/

theorem exec_stop_of_srun {s : State} (h : s.srun = true) :
    exec .stop s = .next (commandOk { s with stopReq := true }) := by
  rw [exec, execStop, if_pos h]

theorem exec_stop_of_not_srun {s : State} (h : s.srun = false) : exec .stop s = .next (commandOk s) := by
  rw [exec, execStop, if_neg (Bool.eq_false_iff.1 h)]

end Sys2Proof.Machine

namespace Sys2Proof.StreamerCommands

open Sys2Proof.Machine

/-- Settles O25: up to 111 the laws of the table's write say what the new table reads; above, the command raises. -/
theorem setChannelResult : Obligations.SetChannelResult := by
  unfold Obligations.SetChannelResult
  intro a v s hct
  constructor
  · intro ha
    have hlt : a.toNat < Config.nChannels := Nat.lt_succ_of_le ha
    exact ⟨Memory.write s.ct a.toNat v, exec_setChannel_of_channel hlt v s, Memory.wf_write s.ct a.toNat v hct hlt,
      Memory.read_write_same s.ct 0 a.toNat v hct, fun b => Memory.read_write_other s.ct a.toNat b v⟩
  · intro ha
    exact exec_setChannel_of_badAddress (Nat.not_lt.2 ha) v s

/-- Settles O26: the command has one branch, whatever the state. -/
theorem setTrackPowerResult : Obligations.SetTrackPowerResult := by
  unfold Obligations.SetTrackPowerResult
  intro on s
  rw [exec, execSetTrackPower, markDirty, commandOk]

/-- Settles O27, by the command's two branches in its domain. -/
theorem startResult : Obligations.StartResult := by
  unfold Obligations.StartResult
  intro s
  exact ⟨exec_start_of_running, exec_start_of_stopped⟩

/-- Settles O29, by whether the Streamer runs. -/
theorem stopResult : Obligations.StopResult := by
  unfold Obligations.StopResult
  intro s
  exact ⟨exec_stop_of_srun, exec_stop_of_not_srun⟩

end Sys2Proof.StreamerCommands

/-! ## The exceptions (60_exceptions.md)

What the API does with a value before the command runs (R202), and what a load answers in each of its branches (T-R203,
R208; log 12). -/

namespace Sys2Proof.Machine

/-! ### API calls (30_encoding.md R92, 60_exceptions.md R202) -/

/-- The mask of R202 is the eight bits that the word's `v` has. -/
theorem decodeCommand_apiWord_setChannel (address : BitVec 8) (value : Nat) :
    decodeCommand (apiWord (.setChannel address value))
      = .ok (.setChannel address (BitVec.ofNat 8 (value % 256))) := by
  have hmask : BitVec.ofNat 8 (value % 256) = BitVec.ofNat 8 value := BitVec.eq_of_toNat_eq (by simp)
  rw [hmask, apiWord, decodeCommand_cmdWord, if_pos rfl]

theorem decodeCommand_apiWord_setTrackPower (on : Bool) :
    decodeCommand (apiWord (.setTrackPower on)) = .ok (.setTrackPower on) := by
  cases on with
  | false => decide
  | true => decide

/-! ### A load (00_scope.md R5, 60_exceptions.md T-R203, R208) -/

theorem cfgLegal_iff (c : Cfg) : cfgLegal c = true ↔ c.paramsLegal = true ∧ tableLegal c = true := by
  rw [cfgLegal, Bool.and_eq_true]

theorem loadCfg_of_running (c : Cfg) {s : State} (h : s.run = true ∨ s.srun = true) :
    loadCfg c s = .refused .loadWhileRunning := by
  rw [loadCfg, if_pos (Bool.or_eq_true_iff.2 h)]

section Stopped
variable {c : Cfg} {s : State} (hrun : s.run = false) (hsrun : s.srun = false)
include hrun hsrun

theorem loadCfg_of_illegalParams (hp : c.paramsLegal = false) : loadCfg c s = .refused .illegalConfig := by
  simp [loadCfg, hrun, hsrun, hp]

theorem loadCfg_of_illFormedTable (hp : c.paramsLegal = true) (ht : tableLegal c = false) :
    loadCfg c s = .refused .illFormedTable := by
  simp [loadCfg, hrun, hsrun, hp, ht]

/-- The first load, or a later one that leaves the parameters of 00_scope.md R6 as they are. -/
theorem loadCfg_of_sameParams (hc : cfgLegal c = true) (h : s.cfg.prog = [] ∨ Cfg.sameParams s.cfg c = true) :
    loadCfg c s = .next (placeCfg c s) := by
  obtain ⟨hp, ht⟩ := (cfgLegal_iff c).1 hc
  rcases h with hfirst | hsame
  · simp [loadCfg, constructed, hrun, hsrun, hp, ht, hfirst]
  · simp [loadCfg, hrun, hsrun, hp, ht, hsame]

theorem loadCfg_of_noFrame (hc : cfgLegal c = true) (h : s.cfg.prog = [] ∨ Cfg.sameParams s.cfg c = true)
    (hframe : s.frameValid = false) :
    loadCfg c s = .next { s with cfg := c, srcnt := c.wordWidth, frame := List.replicate (nwords c) 0 } := by
  rw [loadCfg_of_sameParams hrun hsrun hc h, placeCfg]
  simp [hframe]

theorem loadCfg_of_frameValid (hc : cfgLegal c = true) (h : s.cfg.prog = [] ∨ Cfg.sameParams s.cfg c = true)
    (hframe : s.frameValid = true) :
    loadCfg c s = .next { s with cfg := c, srcnt := c.wordWidth } := by
  rw [loadCfg_of_sameParams hrun hsrun hc h, placeCfg]
  simp [hframe]

theorem loadCfg_of_parameterChanged (hc : cfgLegal c = true) (hloaded : s.cfg.prog ≠ [])
    (hdiff : Cfg.sameParams s.cfg c = false) : loadCfg c s = .refused .parameterChanged := by
  obtain ⟨hp, ht⟩ := (cfgLegal_iff c).1 hc
  simp [loadCfg, constructed, hrun, hsrun, hp, ht, hloaded, hdiff]

end Stopped

end Sys2Proof.Machine

namespace Sys2Proof.Exceptions

open Sys2Proof.Machine

/-- Settles O32: an API call runs what its word decodes to, and a track-power word above 1 is reserved by its fields. -/
theorem apiValuesAreMasked : Obligations.ApiValuesAreMasked := by
  unfold Obligations.ApiValuesAreMasked
  intro s rest
  refine ⟨?channel, ?power, ?reserved⟩
  case channel =>
    intro address value hturn
    rw [step_of_turns_cons s _ rest hturn]
    exact presentCommand_of_ok _ (decodeCommand_apiWord_setChannel address value) (by simp)
  case power =>
    intro on hturn
    rw [step_of_turns_cons s _ rest hturn]
    exact presentCommand_of_ok _ (decodeCommand_apiWord_setTrackPower on) (by simp)
  case reserved =>
    intro v hv hturn
    have hres : ReservedFields 1#3 0#8 v := by simp [ReservedFields, hv]
    rw [step_of_turns_cons s _ rest hturn]
    exact presentCommand_of_reservedFields _ hres

/-- Settles O37, by the branches of a load. -/
theorem loadOnlyWhileStopped : Obligations.LoadOnlyWhileStopped := by
  unfold Obligations.LoadOnlyWhileStopped
  intro s rest c hturn
  rw [step_of_turns_cons s _ rest hturn, runTurn]
  refine ⟨?running, fun hrun hsrun => ⟨?params, ?table, ?noFrame, ?frame, ?changed⟩⟩
  case running =>
    intro hon
    exact loadCfg_of_running c hon
  case params =>
    intro hp
    exact loadCfg_of_illegalParams hrun hsrun hp
  case table =>
    intro hp ht
    exact loadCfg_of_illFormedTable hrun hsrun hp ht
  case noFrame =>
    intro hc hsame hframe
    exact loadCfg_of_noFrame hrun hsrun hc hsame hframe
  case frame =>
    intro hc hsame hframe
    exact loadCfg_of_frameValid hrun hsrun hc hsame hframe
  case changed =>
    intro hc hloaded hdiff
    exact loadCfg_of_parameterChanged hrun hsrun hc hloaded hdiff

end Sys2Proof.Exceptions

/-! ## Encodings, both ways (30_encoding.md)

The row decoder by the fields of the word, as `decodeCommand_cmdWord` is the command decoder by its fields (R84, R85);
which fields of `arg` each line leaves free (T-R83); and from these that decoding and encoding invert each other at every
port. -/

namespace Sys2Proof

/-! ### Row words by their fields (30_encoding.md T-R80, R84) -/

theorem ofBool_getLsbD_eq_extractLsb' {w : Nat} (x : BitVec w) (i : Nat) :
    BitVec.ofBool (x.getLsbD i) = x.extractLsb' i 1 := by
  refine BitVec.eq_of_getLsbD_eq fun j hj => ?_
  obtain rfl : j = 0 := by omega
  simp

section RowFields
variable (op : BitVec 3) (h : RowHead) (arg : BitVec 16)

/-- A row word is the word of its fields (30_encoding.md T-R80). -/
theorem rowWord_of_fields (w : RowWord) :
    rowWord (w.extractLsb' 29 3) (rowHead w) (w.extractLsb' 0 16) = w := by
  rw [rowWord, rowHead, ofBool_getLsbD_eq_extractLsb', ofBool_getLsbD_eq_extractLsb',
    BitVec.extractLsb'_append_extractLsb'_eq_extractLsb' (by decide),
    BitVec.extractLsb'_append_extractLsb'_eq_extractLsb' (by decide),
    BitVec.extractLsb'_append_extractLsb'_eq_extractLsb' (by decide),
    BitVec.extractLsb'_append_extractLsb'_eq_extractLsb' (by decide)]
  exact BitVec.extractLsb'_eq_self

@[simp] theorem rowWord_arg : (rowWord op h arg).extractLsb' 0 16 = arg := BitVec.extractLsb'_append_eq_right

@[simp] theorem rowHead_rowWord : rowHead (rowWord op h arg) = h := by
  obtain ⟨se, sv, cyc⟩ := h
  have hse : (rowWord op ⟨se, sv, cyc⟩ arg).getLsbD 28 = se := by
    rw [rowWord]
    simp only [BitVec.getLsbD_append]
    simp
  have hsv : (rowWord op ⟨se, sv, cyc⟩ arg).getLsbD 27 = sv := by
    rw [rowWord]
    simp only [BitVec.getLsbD_append]
    simp
  have hcyc : (rowWord op ⟨se, sv, cyc⟩ arg).extractLsb' 16 11 = cyc := by
    rw [rowWord, BitVec.extractLsb'_append_eq_of_le (by omega)]
    exact BitVec.extractLsb'_append_eq_right
  rw [rowHead, hse, hsv, hcyc]

theorem rowWord_eq_iff (w : RowWord) :
    rowWord op h arg = w ↔ op = w.extractLsb' 29 3 ∧ h = rowHead w ∧ arg = w.extractLsb' 0 16 := by
  constructor
  · rintro rfl
    exact ⟨(rowWord_op op h arg).symm, (rowHead_rowWord op h arg).symm, (rowWord_arg op h arg).symm⟩
  · rintro ⟨rfl, rfl, rfl⟩
    exact rowWord_of_fields w

/-- A pattern that leaves the head free is met by `op` and `arg` alone. -/
theorem rowWord_match_iff {m v : RowWord} (hm : rowHead m = ⟨false, false, 0#11⟩)
    (hv : rowHead v = ⟨false, false, 0#11⟩) :
    rowWord op h arg &&& m = v ↔
      op &&& m.extractLsb' 29 3 = v.extractLsb' 29 3 ∧ arg &&& m.extractLsb' 0 16 = v.extractLsb' 0 16 := by
  have hand : rowWord op h arg &&& m
      = rowWord (op &&& m.extractLsb' 29 3) ⟨false, false, 0#11⟩ (arg &&& m.extractLsb' 0 16) := by
    conv_lhs => rw [← rowWord_of_fields m, hm]
    rw [rowWord, rowWord, rowWord, BitVec.and_append, BitVec.and_append, BitVec.and_append, BitVec.and_append]
    simp
  rw [hand, rowWord_eq_iff, hv]
  simp

theorem rowWord_extractLsb' {k : Nat} (hk : k ≤ 16) :
    (rowWord op h arg).extractLsb' 0 k = arg.extractLsb' 0 k := by
  rw [rowWord, BitVec.extractLsb'_append_eq_of_add_le (by omega)]

theorem rowWord_getLsbD {k : Nat} (hk : k < 16) : (rowWord op h arg).getLsbD k = arg.getLsbD k := by
  rw [rowWord, BitVec.getLsbD_append, if_pos hk]

/-- The row decoder by the fields of the word (30_encoding.md T-R83, R85). -/
theorem decodeRow_rowWord :
    decodeRow (rowWord op h arg) =
      if op = 0#3 ∧ arg = 0#16 then .ok (.nop h)
      else if op = 1#3 ∧ arg &&& 0xFEFC#16 = 0#16 then .ok (.shift h (arg.extractLsb' 0 2) (arg.getLsbD 8))
      else if op = 2#3 ∧ arg &&& 0xFF00#16 = 0#16 then .ok (.setp h (arg.extractLsb' 0 8))
      else if op = 3#3 then .ok (.ldc h arg)
      else if op = 4#3 ∧ arg &&& 0xFFE0#16 = 0#16 then .ok (.jmp h (arg.extractLsb' 0 5))
      else if op = 5#3 ∧ arg &&& 0xFEE0#16 = 0#16 then .ok (.jbit h (arg.getLsbD 8) (arg.extractLsb' 0 5))
      else if op = 6#3 ∧ arg &&& 0xFFE0#16 = 0#16 then .ok (.jctr h (arg.extractLsb' 0 5))
      else if op = 7#3 then .ok (.rowReserved ((rowWord op h arg).extractLsb' 0 29))
      else .error .rowMustBeZero := by
  have hop : op &&& 7#3 = op := BitVec.and_allOnes
  have harg : arg &&& 0xFFFF#16 = arg := BitVec.and_allOnes
  rw [decodeRow, rowHead_rowWord, rowWord_arg, rowWord_getLsbD _ _ _ (by decide),
    rowWord_extractLsb' _ _ _ (by decide), rowWord_extractLsb' _ _ _ (by decide),
    rowWord_extractLsb' _ _ _ (by decide)]
  simp (disch := decide) only [rowWord_match_iff]
  simp [hop, harg]

end RowFields

/-! ### The argument fields (30_encoding.md T-R83) -/

/-- A field that lies under a must-be-zero mask is zero. -/
theorem extractLsb'_eq_zero_of_and {w : Nat} {x mask : BitVec w} (h : x &&& mask = 0#w) (start len : Nat)
    (hmask : mask.extractLsb' start len = BitVec.allOnes len) : x.extractLsb' start len = 0#len := by
  have hfield : (x &&& mask).extractLsb' start len = 0#len := by rw [h, BitVec.extractLsb'_zero]
  rwa [BitVec.extractLsb'_and, hmask, BitVec.and_allOnes] at hfield

section Arguments
variable {arg : BitVec 16}

theorem shiftArg_mustBeZero (n : BitVec 2) (d : Bool) : shiftArg n d &&& 0xFEFC#16 = 0#16 := by decide +revert

theorem shiftArg_n (n : BitVec 2) (d : Bool) : (shiftArg n d).extractLsb' 0 2 = n := by decide +revert

theorem shiftArg_d (n : BitVec 2) (d : Bool) : (shiftArg n d)[8] = d := by decide +revert

theorem shiftArg_of_fields (h : arg &&& 0xFEFC#16 = 0#16) :
    shiftArg (arg.extractLsb' 0 2) (arg.getLsbD 8) = arg := by
  rw [shiftArg, ofBool_getLsbD_eq_extractLsb', ← extractLsb'_eq_zero_of_and h 9 7 (by decide),
    ← extractLsb'_eq_zero_of_and h 2 6 (by decide), BitVec.extractLsb'_append_extractLsb'_eq_extractLsb' (by decide),
    BitVec.extractLsb'_append_extractLsb'_eq_extractLsb' (by decide),
    BitVec.extractLsb'_append_extractLsb'_eq_extractLsb' (by decide)]
  exact BitVec.extractLsb'_eq_self

theorem setpArg_mustBeZero (lit : BitVec 8) : (0#8 ++ lit) &&& 0xFF00#16 = 0#16 := by decide +revert

theorem setpArg_lit (lit : BitVec 8) : (0#8 ++ lit).extractLsb' 0 8 = lit := BitVec.extractLsb'_append_eq_right

theorem setpArg_of_fields (h : arg &&& 0xFF00#16 = 0#16) : 0#8 ++ arg.extractLsb' 0 8 = arg := by
  rw [← extractLsb'_eq_zero_of_and h 8 8 (by decide),
    BitVec.extractLsb'_append_extractLsb'_eq_extractLsb' (by decide)]
  exact BitVec.extractLsb'_eq_self

theorem branchArg_mustBeZero (b : Bool) (t : BitVec 5) : branchArg b t &&& 0xFEE0#16 = 0#16 := by decide +revert

theorem branchArg_false_mustBeZero (t : BitVec 5) : branchArg false t &&& 0xFFE0#16 = 0#16 := by decide +revert

theorem branchArg_target (b : Bool) (t : BitVec 5) : (branchArg b t).extractLsb' 0 5 = t := by decide +revert

theorem branchArg_b (b : Bool) (t : BitVec 5) : (branchArg b t)[8] = b := by decide +revert

theorem branchArg_of_fields (h : arg &&& 0xFEE0#16 = 0#16) :
    branchArg (arg.getLsbD 8) (arg.extractLsb' 0 5) = arg := by
  rw [branchArg, ofBool_getLsbD_eq_extractLsb', ← extractLsb'_eq_zero_of_and h 9 7 (by decide),
    ← extractLsb'_eq_zero_of_and h 5 3 (by decide), BitVec.extractLsb'_append_extractLsb'_eq_extractLsb' (by decide),
    BitVec.extractLsb'_append_extractLsb'_eq_extractLsb' (by decide),
    BitVec.extractLsb'_append_extractLsb'_eq_extractLsb' (by decide)]
  exact BitVec.extractLsb'_eq_self

theorem branchArg_false_of_fields (h : arg &&& 0xFFE0#16 = 0#16) : branchArg false (arg.extractLsb' 0 5) = arg := by
  have hzero : BitVec.ofBool false = 0#1 := rfl
  rw [branchArg, hzero, ← extractLsb'_eq_zero_of_and h 9 7 (by decide),
    ← extractLsb'_eq_zero_of_and h 8 1 (by decide), ← extractLsb'_eq_zero_of_and h 5 3 (by decide),
    BitVec.extractLsb'_append_extractLsb'_eq_extractLsb' (by decide),
    BitVec.extractLsb'_append_extractLsb'_eq_extractLsb' (by decide),
    BitVec.extractLsb'_append_extractLsb'_eq_extractLsb' (by decide)]
  exact BitVec.extractLsb'_eq_self

end Arguments

/-! ### Reserved words by their fields -/

theorem exists_rowWord (w : RowWord) : ∃ op h arg, w = rowWord op h arg := ⟨_, _, _, (rowWord_of_fields w).symm⟩

theorem exists_cmdWord (w : CmdWord) : ∃ cmd a v, w = cmdWord cmd a v := ⟨_, _, _, (cmdWord_of_fields w).symm⟩

theorem op_append_low29 (op : BitVec 3) (h : RowHead) (arg : BitVec 16) :
    op ++ (rowWord op h arg).extractLsb' 0 29 = rowWord op h arg := by
  have hop := rowWord_op op h arg
  generalize rowWord op h arg = w at hop ⊢
  rw [← hop, BitVec.extractLsb'_append_extractLsb'_eq_extractLsb' (by decide)]
  exact BitVec.extractLsb'_eq_self

/-- A reserved row is read back with the 29 bits below its `op` (30_encoding.md R85). -/
theorem decodeRow_reserved (x : BitVec 29) : decodeRow (0b111#3 ++ x) = .ok (.rowReserved x) := by
  obtain ⟨op, h, arg, hw⟩ := exists_rowWord (0b111#3 ++ x)
  have hop : op = 7#3 := by
    rw [← rowWord_op op h arg, ← hw, BitVec.extractLsb'_append_eq_of_le (by decide)]
    rfl
  have hlow : (rowWord op h arg).extractLsb' 0 29 = x := by
    rw [← hw]
    exact BitVec.extractLsb'_append_eq_right
  rw [hw, decodeRow_rowWord, hlow]
  simp [hop]

theorem exists_append_bytes (x : BitVec 16) : ∃ a v : BitVec 8, x = a ++ v :=
  ⟨x.extractLsb' 8 8, x.extractLsb' 0 8, by
    rw [BitVec.extractLsb'_append_extractLsb'_eq_extractLsb' (by decide)]
    exact BitVec.extractLsb'_eq_self.symm⟩

/-- The reserved commands are read back with the 16 bits below their `cmd` (30_encoding.md R88). -/
theorem decodeCommand_reserved (x : BitVec 16) :
    decodeCommand (0b101#3 ++ x) = .ok (.cmdReserved5 x) ∧ decodeCommand (0b110#3 ++ x) = .ok (.cmdReserved6 x)
      ∧ decodeCommand (0b111#3 ++ x) = .ok (.cmdReserved7 x) := by
  obtain ⟨a, v, rfl⟩ := exists_append_bytes x
  simp only [append_low16, decodeCommand_cmdWord]
  simp

/-! ### Decoding and encoding -/

/-- The decoder of each port reads every operand back from the word the encoder puts it in. -/
theorem decode_encode {i : Instr} {e : Encoded} (h : encode i = some e) : decode e = .ok i := by
  cases i with
  | nop hd => cases h; simp [decode, decodeRow_rowWord]
  | shift hd n d => cases h; simp [decode, decodeRow_rowWord, shiftArg_mustBeZero, shiftArg_n, shiftArg_d]
  | setp hd lit => cases h; simp [decode, decodeRow_rowWord, setpArg_mustBeZero, setpArg_lit]
  | ldc hd imm => cases h; simp [decode, decodeRow_rowWord]
  | jmp hd t => cases h; simp [decode, decodeRow_rowWord, branchArg_false_mustBeZero, branchArg_target]
  | jbit hd b t => cases h; simp [decode, decodeRow_rowWord, branchArg_mustBeZero, branchArg_target, branchArg_b]
  | jctr hd t => cases h; simp [decode, decodeRow_rowWord, branchArg_false_mustBeZero, branchArg_target]
  | rowReserved x => cases h; exact decodeRow_reserved x
  | setChannel a v => cases h; simp [decode, decodeCommand_cmdWord]
  | setTrackPower on => cases h; exact Machine.decodeCommand_apiWord_setTrackPower on
  | start => cases h; simp [decode, decodeCommand_cmdWord]
  | stop => cases h; simp [decode, decodeCommand_cmdWord]
  | rebuild => cases h; simp [decode, decodeCommand_cmdWord]
  | cmdReserved5 x => cases h; obtain ⟨h5, _, _⟩ := decodeCommand_reserved x; exact h5
  | cmdReserved6 x => cases h; obtain ⟨_, h6, _⟩ := decodeCommand_reserved x; exact h6
  | cmdReserved7 x => cases h; obtain ⟨_, _, h7⟩ := decodeCommand_reserved x; exact h7
  | push w => cases h; rfl
  | _ => cases h

theorem exists_encode_of_not_isFunction {i : Instr} (h : i.isFunction = false) : ∃ e, encode i = some e := by
  cases i with
  | encodeByte | decodeByte | encodeHeader | encodeBlock | encodeFrame | polarityMap | pack | unpack => cases h
  | _ => exact ⟨_, rfl⟩

/-- The bits of a row word that its line does not hand on are those its pattern fixes (30_encoding.md T-R84). -/
theorem encode_of_decodeRow {w : RowWord} {i : Instr} (h : decodeRow w = .ok i) : encode i = some (.row w) := by
  obtain ⟨op, hd, arg, rfl⟩ := exists_rowWord w
  rw [decodeRow_rowWord] at h
  split at h
  next hm => obtain ⟨rfl, rfl⟩ := hm; cases h; rfl
  split at h
  next hm => obtain ⟨rfl, harg⟩ := hm; cases h; rw [encode, shiftArg_of_fields harg]
  split at h
  next hm => obtain ⟨rfl, harg⟩ := hm; cases h; rw [encode, setpArg_of_fields harg]
  split at h
  next hm => subst hm; cases h; rfl
  split at h
  next hm => obtain ⟨rfl, harg⟩ := hm; cases h; rw [encode, branchArg_false_of_fields harg]
  split at h
  next hm => obtain ⟨rfl, harg⟩ := hm; cases h; rw [encode, branchArg_of_fields harg]
  split at h
  next hm => obtain ⟨rfl, harg⟩ := hm; cases h; rw [encode, branchArg_false_of_fields harg]
  split at h
  next hm =>
    subst hm
    cases h
    rw [encode, op_append_low29]
  cases h

theorem setTrackPower_byte {v : BitVec 8} (h : v.toNat ≤ 1) : 0#7 ++ BitVec.ofBool (v.getLsbD 0) = v := by
  decide +revert

theorem encode_of_decodeCommand {w : CmdWord} {i : Instr} (h : decodeCommand w = .ok i) :
    encode i = some (.command w) := by
  obtain ⟨cmd, a, v, rfl⟩ := exists_cmdWord w
  rw [decodeCommand_cmdWord] at h
  split at h
  next hm => subst hm; cases h; rfl
  split at h
  next hm => obtain ⟨rfl, rfl, hv⟩ := hm; cases h; rw [encode, setTrackPower_byte hv]
  split at h
  next hm => obtain ⟨rfl, rfl, rfl⟩ := hm; cases h; rfl
  split at h
  next hm => obtain ⟨rfl, rfl, rfl⟩ := hm; cases h; rfl
  split at h
  next hm => obtain ⟨rfl, rfl, rfl⟩ := hm; cases h; rfl
  split at h
  next hm => subst hm; cases h; rw [encode, append_low16]
  split at h
  next hm => subst hm; cases h; rw [encode, append_low16]
  split at h
  next hm => subst hm; cases h; rw [encode, append_low16]
  cases h

end Sys2Proof

namespace Sys2Proof.Encoding

/-- Settles O3, by the constructor: the fields of each instruction are read back from its word. -/
theorem decodeEncodeRoundTrip : Obligations.DecodeEncodeRoundTrip := by
  unfold Obligations.DecodeEncodeRoundTrip
  intro i
  exact ⟨fun e => decode_encode, exists_encode_of_not_isFunction⟩

/-- Settles O4, by the port: the fields a decoder's line does not hand on are the ones its pattern fixes. -/
theorem encodeDecodeRoundTrip : Obligations.EncodeDecodeRoundTrip := by
  unfold Obligations.EncodeDecodeRoundTrip
  intro e i h
  cases e with
  | row w => exact encode_of_decodeRow h
  | command w => exact encode_of_decodeCommand h
  | queueWord w => cases h; rfl

/-- Settles O1: each word is decoded by its fields. -/
theorem specWordsDecode : Obligations.SpecWordsDecode := by
  unfold Obligations.SpecWordsDecode
  exact ⟨rfl, rfl, rfl, rfl, rfl, rfl, rfl, rfl⟩

end Sys2Proof.Encoding

/-! ## What a step can do (10_state.md R10, 20_memory.md R56)

The inversion of the whole step: one case for each atomic effect an agent's turn can have, with what held before it.
The statements about every step are case analyses of it. -/

namespace Sys2Proof.Machine

/-- A command word presented by the application, at its port or through the API (30_encoding.md R87, R92). -/
def Presents (n : Turn) (w : CmdWord) : Prop := n = .command w ∨ ∃ c, n = .api c ∧ apiWord c = w

/-- What the turn `n` can make of `s`. -/
inductive Effect (n : Turn) (s t : State) : Prop where
  | replies (r : Reply) (ht : t = { s with reply := r })
  | countsDown (hn : n = .tick) (hrun : s.run = true) (hdly : s.dly ≠ 0#11) (ht : t = { s with dly := s.dly - 1#11 })
  | halts (hn : n = .tick) (hrun : s.run = true) (hdly : s.dly = 0#11) (ha : haltAccepted s = true) (ht : t = halt s)
  | runsRow (i : Instr) (hn : n = .tick) (hrun : s.run = true) (hdly : s.dly = 0#11) (hi : i.isRow = true)
      (ht : exec i s = .next t)
  | streamerStops (f : Bool) (hn : n = .streamer f) (hs : s.srun = true) (ht : t = streamerStop s)
  | rebuilds (f : Bool) (hn : n = .streamer f) (hb : rebuildEnabled s = true) (ht : t = rebuildFrame s)
  | pushes (f : Bool) (w : Word) (hn : n = .streamer f) (hp : pushEnabled s = true)
      (ht : t = advanceIdx (queuePush (portWord s.cfg.wordWidth w) s))
  | setsChannel (w : CmdWord) (a : BitVec 8) (v : Byte) (hn : Presents n w)
      (hw : decodeCommand w = .ok (.setChannel a v)) (ha : a.toNat < Config.nChannels)
      (ht : t = commandOk (markDirty { s with ct := Memory.write s.ct a.toNat v }))
  | setsTrackPower (w : CmdWord) (on : Bool) (hn : Presents n w) (ht : t = commandOk (markDirty { s with tp := on }))
  | starts (w : CmdWord) (hn : Presents n w) (hrun : s.run = false) (hs : s.srun = false) (hc : cfgLegal s.cfg = true)
      (ht : t = commandOk (startRun s))
  | stops (w : CmdWord) (hn : Presents n w) (hs : s.srun = true) (ht : t = commandOk { s with stopReq := true })
  | loads (c : Cfg) (hn : n = .load c) (hrun : s.run = false) (hs : s.srun = false) (hc : cfgLegal c = true)
      (hp : s.cfg.prog ≠ [] → Cfg.sameParams s.cfg c = true) (ht : t = placeCfg c s)

theorem automatonTick_effect {s t : State} (h : automatonTick s = .next t) : Effect .tick s t := by
  rcases automatonTick_next s t h with ⟨_, rfl⟩ | ⟨hr, hd, ht⟩ | ⟨hr, hd, ha, ht⟩ | ⟨hr, hd, _, w, i, _, hi, ht⟩
  · exact .replies t.reply rfl
  · exact .countsDown rfl hr hd ht
  · exact .halts rfl hr hd ha ht
  · exact .runsRow i rfl hr hd (decodeRow_isRow w i hi) ht

theorem streamerStep_effect {f : Bool} {s t : State} (h : streamerStep f s = .next t) : Effect (.streamer f) s t := by
  rcases streamerStep_next f s t h with rfl | ⟨hs, _, ht⟩ | ⟨hb, ht⟩ | ⟨hp, w, _, ht⟩
  · exact .replies t.reply rfl
  · exact .streamerStops f rfl hs ht
  · exact .rebuilds f rfl hb ht
  · exact .pushes f w rfl hp ht

theorem presentCommand_effect {n : Turn} {w : CmdWord} {s t : State} (hn : Presents n w)
    (h : presentCommand w s = .next t) : Effect n s t := by
  rcases presentCommand_next w s t h with
    ⟨r, ht⟩ | ⟨a, v, hw, ha, ht⟩ | ⟨on, _, ht⟩ | ⟨_, hr, hs, hc, ht⟩ | ⟨_, hs, ht⟩
  · exact .replies r ht
  · exact .setsChannel w a v hn hw ha ht
  · exact .setsTrackPower w on hn ht
  · exact .starts w hn hr hs hc ht
  · exact .stops w hn hs ht

theorem runTurn_effect {n : Turn} {s t : State} (h : runTurn n s = .next t) : Effect n s t := by
  cases n with
  | tick => exact automatonTick_effect h
  | streamer f => exact streamerStep_effect h
  | command w => exact presentCommand_effect (.inl rfl) h
  | api c => exact presentCommand_effect (.inr ⟨c, rfl, rfl⟩) h
  | call i =>
    obtain ⟨r, ht⟩ := callFunction_next i s t h
    exact .replies r ht
  | load c =>
    obtain ⟨hr, hs, hc, hp, ht⟩ := loadCfg_next c s t h
    exact .loads c rfl hr hs hc hp ht

/-- A step is the effect of the next turn on the state with that turn taken. -/
theorem step_effect {s t : State} (h : step s = .next t) : Effect (nextTurn s) (takeTurn s) t := runTurn_effect h

/-! ### Configurations -/

theorem cfgLegal_width {c : Cfg} (h : cfgLegal c = true) : 1 ≤ c.wordWidth ∧ c.symbolBits ∣ c.wordWidth := by
  obtain ⟨hp, _⟩ := (cfgLegal_iff c).1 h
  simp only [Cfg.paramsLegal, Bool.and_eq_true, decide_eq_true_eq, and_assoc] at hp
  obtain ⟨_, hpos, hdvd, _⟩ := hp
  exact ⟨hpos, Nat.dvd_of_mod_eq_zero hdvd⟩

theorem cfgLegal_progLen {c : Cfg} (h : cfgLegal c = true) : 1 ≤ c.progLen ∧ c.progLen ≤ 32 := by
  obtain ⟨_, ht⟩ := (cfgLegal_iff c).1 h
  simp only [tableLegal, Bool.and_eq_true, decide_eq_true_eq, and_assoc] at ht
  obtain ⟨hpos, hmax, _⟩ := ht
  exact ⟨hpos, hmax⟩

theorem cfgLegal_prog_ne_nil {c : Cfg} (h : cfgLegal c = true) : c.prog ≠ [] :=
  List.length_pos_iff.1 (cfgLegal_progLen h).1

theorem sameParams_iff (c d : Cfg) :
    Cfg.sameParams c d = true ↔ c.npins = d.npins ∧ c.wordWidth = d.wordWidth ∧ c.cycleNs = d.cycleNs
      ∧ c.qdepth = d.qdepth ∧ c.variant = d.variant ∧ c.symbolBits = d.symbolBits ∧ c.addrInvert = d.addrInvert
      ∧ c.polInit = d.polInit := by
  simp only [Cfg.sameParams, Bool.and_eq_true, decide_eq_true_eq, and_assoc]

theorem nwords_of_sameParams {c d : Cfg} (h : Cfg.sameParams c d = true) : nwords c = nwords d := by
  obtain ⟨_, hw, _, _, hv, _⟩ := (sameParams_iff c d).1 h
  rw [nwords, nwords, frameLength, frameLength, hw, hv]

theorem frameImage_of_sameParams {c d : Cfg} (h : Cfg.sameParams c d = true) : frameImage c = frameImage d := by
  obtain ⟨_, hw, _, _, hv, _, ha, hp⟩ := (sameParams_iff c d).1 h
  funext ct tp
  rw [frameImage, frameImage, frameBits, frameBits, hw, hv, ha, hp]

/-- The rebuilt bit sequence has length `L` (10_state.md R31). -/
@[simp] theorem frameBits_length (c : Cfg) (ct : List Byte) (tp : Bool) :
    (frameBits c ct tp).length = frameLength c := by
  rw [frameBits, frameLength]
  cases c.variant with
  | twoLine => exact encodeFrame_length ..
  | differential => rw [mapPolarity_length, encodeFrame_length]

@[simp] theorem frameImage_length (c : Cfg) (ct : List Byte) (tp : Bool) :
    (frameImage c ct tp).length = nwords c := by
  rw [frameImage, packBits_length, frameBits_length, nwords]

theorem frameLength_pos (c : Cfg) : 0 < frameLength c := by
  rw [frameLength]
  cases c.variant with
  | twoLine => decide
  | differential => decide

theorem nwords_pos {c : Cfg} (h : cfgLegal c = true) : 0 < nwords c := by
  obtain ⟨hwidth, _⟩ := cfgLegal_width h
  have hlen := frameLength_pos c
  exact Nat.div_pos (by omega) hwidth

theorem seqPc_lt {s : State} (h : cfgLegal s.cfg = true) : (seqPc s).toNat < s.cfg.progLen := by
  obtain ⟨hpos, hmax⟩ := cfgLegal_progLen h
  have hmod : (s.pc.toNat + 1) % s.cfg.progLen < s.cfg.progLen := Nat.mod_lt _ hpos
  rw [seqPc, BitVec.toNat_ofNat]
  exact (Nat.mod_le _ _).trans_lt hmod

theorem pinLevel_toNat_lt (npins v : Nat) : (pinLevel npins v).toNat < 2 ^ npins := by
  rw [pinLevel, BitVec.toNat_ofNat]
  exact (Nat.mod_le _ _).trans_lt (Nat.mod_lt _ (Nat.two_pow_pos npins))

/-! ### Enabled steps of the Streamer (44_streamer_commands.md R187, R188) -/

theorem rebuildEnabled_iff (s : State) :
    rebuildEnabled s = true ↔ s.srun = true ∧ s.stopReq = false ∧ s.idx = 0 ∧ s.dirty = true := by
  simp [rebuildEnabled, and_assoc]

theorem queueHasRoom_iff (s : State) : queueHasRoom s = true ↔ s.q.length < s.cfg.qdepth := by
  simp [queueHasRoom]

theorem pushEnabled_iff (s : State) :
    pushEnabled s = true ↔ s.srun = true ∧ s.frameValid = true ∧ s.q.length < s.cfg.qdepth
      ∧ (s.stopReq = false ∧ ¬ (s.idx = 0 ∧ s.dirty = true) ∨ s.stopReq = true ∧ s.idx ≠ 0) := by
  rw [← queueHasRoom_iff]
  cases hq : s.stopReq <;> simp [pushEnabled, hq, and_assoc, imp_iff_not_or]

/-! ### Runs -/

section AnyCore
variable (M : Host.Core) {k : Nat} {s t : M.State}

theorem coreRun_succ_of_step (h : M.step s = .next t) : M.run (k + 1) s = M.run k t := by
  rw [Host.Core.run, h]

theorem coreRun_succ_next (h : M.run (k + 1) s = .next t) : ∃ u, M.step s = .next u ∧ M.run k u = .next t := by
  rw [Host.Core.run] at h
  split at h
  next u hu => exact ⟨u, hu, h⟩
  next => cases h
  next => cases h

end AnyCore

theorem run_succ_of_step {k : Nat} {s t : State} (h : step s = .next t) : core.run (k + 1) s = core.run k t :=
  coreRun_succ_of_step core h

/-- A run that answers a state answers one after its first step. -/
theorem run_succ_next {k : Nat} {s t : State} (h : core.run (k + 1) s = .next t) :
    ∃ u, step s = .next u ∧ core.run k u = .next t :=
  coreRun_succ_next core h

end Sys2Proof.Machine

/-! ## The invariant (44_streamer_commands.md R190)

Each effect keeps the invariant; a lemma names only the parts of the invariant its effect touches. -/

namespace Sys2Proof

open Sys2Proof.Machine

section Effects
variable {s : State} (h : Inv s)
include h

/-- The invariant does not speak of the reply and the schedule. -/
theorem Inv.of_bookkeeping (r : Reply) (ts : List Turn) (k : Nat) :
    Inv { s with reply := r, turns := ts, turnNo := k } := { h with }

theorem Inv.takeTurn : Inv (takeTurn s) := by
  rw [takeTurn_eq]
  exact h.of_bookkeeping s.reply _ _

theorem Inv.countDown (hrun : s.run = true) (hdly : s.dly ≠ 0#11) : Inv { s with dly := s.dly - 1#11 } :=
  { h with
    stoppedIdle := fun hstop => by simp [hrun] at hstop
    stallPlace := fun hst => absurd (h.stallPlace hst).2.1 hdly }

theorem Inv.halt (ha : haltAccepted s = true) : Inv (halt s) := by
  obtain ⟨hreq, _⟩ := (haltAccepted_iff s).1 ha
  obtain ⟨hsrun, _⟩ := h.haltAfterStreamer hreq
  exact { h with
    queueBound := Nat.zero_le _
    streamerNeedsRun := fun hs => absurd (hsrun.symm.trans hs) (by decide)
    haltAfterStreamer := nofun
    stoppedIdle := fun _ => ⟨rfl, rfl, rfl, rfl, rfl, rfl, rfl, rfl, rfl⟩
    runsLegal := nofun
    pcInTable := nofun
    shiftCount := nofun
    shiftBits := fun hne => absurd rfl hne
    pinsInGroup := nofun
    queueWords := nofun
    stallPlace := nofun }

/-- A row keeps the invariant: it stalls at a row boundary with `SR` empty, or what it writes is within the ranges. -/
theorem Inv.row {t : State} {i : Instr} (hrun : s.run = true) (hdly : s.dly = 0#11) (hi : i.isRow = true)
    (ht : exec i s = .next t) : Inv t := by
  have hlegal := h.runsLegal hrun
  obtain ⟨hwidth, hdvd⟩ := cfgLegal_width hlegal
  obtain ⟨hcount, hmod⟩ := h.shiftCount hrun
  have hsymbol := Nat.le_of_dvd hwidth hdvd
  obtain ⟨hwrites, ⟨rfl, hempty, _⟩ | ⟨_, hst, hq, hpc, hpins, hsr⟩⟩ := exec_row_next i s t hi ht
  · exact { h with
      stoppedIdle := fun hstop => absurd (hrun.symm.trans hstop) (by decide)
      stallPlace := fun _ => ⟨hrun, hdly, hempty⟩ }
  have hsub : t.q ⊆ s.q ∧ t.q.length ≤ s.q.length := by
    rcases hq with hq | ⟨w, hq⟩
    · rw [hq]; exact ⟨List.Subset.refl _, le_rfl⟩
    · rw [hq]; exact ⟨List.subset_cons_self _ _, Nat.le_succ _⟩
  obtain ⟨hqsub, hqlen⟩ := hsub
  have hcount' : t.srcnt ≤ s.cfg.wordWidth ∧ t.srcnt % s.cfg.symbolBits = 0 := by
    rcases hsr with ⟨hc, _⟩ | ⟨_, ⟨hne, hc⟩ | ⟨_, hc⟩⟩
    · rw [hc]; exact ⟨hcount, hmod⟩
    · have hroom : s.cfg.symbolBits ≤ s.cfg.wordWidth - s.srcnt :=
        Nat.le_of_dvd (by omega) (Nat.dvd_sub hdvd (Nat.dvd_of_mod_eq_zero hmod))
      exact ⟨by omega, by rw [hc, Nat.add_mod_right, hmod]⟩
    · rw [hc]; exact ⟨hsymbol, Nat.mod_self _⟩
  rw [hwrites]
  exact { h with
    queueBound := hqlen.trans h.queueBound
    stoppedIdle := fun hstop => absurd (hrun.symm.trans hstop) (by decide)
    pcInTable := fun _ => by
      rcases hpc with hpc | hpc
      · exact hpc ▸ seqPc_lt hlegal
      · exact hpc
    shiftCount := fun _ => hcount'
    shiftBits := fun hne => by
      rcases hsr with ⟨hc, hsr⟩ | ⟨hsr, _⟩
      · exact hsr ▸ h.shiftBits (hc ▸ hne)
      · exact hsr
    pinsInGroup := fun _ => by
      rcases hpins with hpins | ⟨v, hpins⟩
      · exact hpins ▸ h.pinsInGroup hrun
      · exact hpins ▸ pinLevel_toNat_lt _ v
    queueWords := fun w hw => h.queueWords w (hqsub hw)
    stallPlace := fun hstall => absurd (hst.symm.trans hstall) (by decide) }

theorem Inv.streamerStop (hs : s.srun = true) : Inv (streamerStop s) :=
  { h with
    streamerNeedsRun := nofun
    haltAfterStreamer := fun _ => ⟨rfl, h.streamerNeedsRun hs⟩
    stopNeedsStreamer := nofun
    idxInFrame := nofun }

theorem Inv.rebuild (hs : s.srun = true) : Inv (rebuildFrame s) :=
  { h with
    noFrameIsDirty := nofun
    frameCurrent := fun _ => rfl
    frameSize := frameImage_length ..
    frameNeedsTable := fun _ => cfgLegal_prog_ne_nil (h.runsLegal (h.streamerNeedsRun hs)) }

theorem Inv.push (hs : s.srun = true) (hroom : queueHasRoom s = true) (w : Word) :
    Inv (advanceIdx (queuePush (portWord s.cfg.wordWidth w) s)) := by
  have hrun := h.streamerNeedsRun hs
  have hlt : qcount s < s.cfg.qdepth := by simpa [queueHasRoom] using hroom
  exact { h with
    queueBound := by simpa [qcount] using hlt
    stoppedIdle := fun hstop => absurd (hrun.symm.trans hstop) (by decide)
    idxInFrame := fun _ => Nat.mod_lt _ (nwords_pos (h.runsLegal hrun))
    queueWords := fun x hx => by
      rcases List.mem_append.1 hx with hx | hx
      · exact h.queueWords x hx
      · rw [List.mem_singleton.1 hx]; exact portWord_lt _ _ }

theorem Inv.setChannel {a : Nat} (ha : a < Config.nChannels) (v : Byte) :
    Inv (commandOk (markDirty { s with ct := Memory.write s.ct a v })) :=
  { h with
    tableForm := Memory.wf_write s.ct a v h.tableForm ha
    noFrameIsDirty := fun _ => rfl
    frameCurrent := nofun }

theorem Inv.setTrackPower (on : Bool) : Inv (commandOk (markDirty { s with tp := on })) :=
  { h with
    noFrameIsDirty := fun _ => rfl
    frameCurrent := nofun }

theorem Inv.start (hc : cfgLegal s.cfg = true) : Inv (commandOk (startRun s)) :=
  { h with
    queueBound := Nat.zero_le _
    streamerNeedsRun := fun _ => rfl
    haltAfterStreamer := nofun
    stopNeedsStreamer := nofun
    stoppedIdle := nofun
    runsLegal := fun _ => hc
    pcInTable := fun _ => (cfgLegal_progLen hc).1
    shiftCount := fun _ => ⟨le_rfl, Nat.mod_eq_zero_of_dvd (cfgLegal_width hc).2⟩
    shiftBits := fun hne => absurd rfl hne
    idxInFrame := fun _ => nwords_pos hc
    pinsInGroup := fun _ => Nat.two_pow_pos _
    queueWords := nofun
    stallPlace := nofun }

theorem Inv.stop (hs : s.srun = true) : Inv (commandOk { s with stopReq := true }) :=
  { h with stopNeedsStreamer := fun _ => hs }

/-- A load keeps a frame that a rebuild has filled: it was built with the parameters that the load may not change. -/
theorem Inv.load {c : Cfg} (hrun : s.run = false) (hsrun : s.srun = false) (hc : cfgLegal c = true)
    (hp : s.cfg.prog ≠ [] → Cfg.sameParams s.cfg c = true) : Inv (placeCfg c s) := by
  obtain ⟨hpins, hside, hq, hst, hpc, hdly, _, hctr, hsym⟩ := h.stoppedIdle hrun
  have hkept (hv : s.frameValid = true) : Cfg.sameParams s.cfg c = true := hp (h.frameNeedsTable hv)
  have hstopped {p : Prop} (hr : s.run = true) : p := absurd (hrun.symm.trans hr) (by decide)
  exact { h with
    frameCurrent := fun hd => by
      have hv : s.frameValid = true := by
        by_contra hv
        exact absurd (hd.symm.trans (h.noFrameIsDirty (Bool.eq_false_iff.2 hv))) (by decide)
      rw [placeCfg_frame, if_pos hv, placeCfg_cfg, ← frameImage_of_sameParams (hkept hv)]
      exact h.frameCurrent hd
    frameSize := by
      rw [placeCfg_frame]
      split
      · next hv => rw [placeCfg_cfg, ← nwords_of_sameParams (hkept hv)]; exact h.frameSize
      · exact List.length_replicate
    queueBound := by rw [qcount, placeCfg_q, hq]; exact Nat.zero_le _
    stoppedIdle := fun _ => ⟨hpins, hside, hq, hst, hpc, hdly, rfl, hctr, hsym⟩
    runsLegal := hstopped
    pcInTable := hstopped
    shiftCount := hstopped
    shiftBits := fun hne => absurd rfl hne
    frameNeedsTable := fun _ => cfgLegal_prog_ne_nil hc
    idxInFrame := fun hs => absurd (hsrun.symm.trans hs) (by decide)
    pinsInGroup := hstopped
    queueWords := by rw [placeCfg_q, hq]; exact List.forall_mem_nil _
    stallPlace := fun hs => absurd (hst.symm.trans hs) (by decide) }

theorem Inv.effect {n : Turn} {t : State} (he : Effect n s t) : Inv t := by
  cases he with
  | replies r ht => rw [ht]; exact h.of_bookkeeping r s.turns s.turnNo
  | countsDown _ hrun hdly ht => rw [ht]; exact h.countDown hrun hdly
  | halts _ _ _ ha ht => rw [ht]; exact h.halt ha
  | runsRow i _ hrun hdly hi ht => exact h.row hrun hdly hi ht
  | streamerStops _ _ hs ht => rw [ht]; exact h.streamerStop hs
  | rebuilds _ _ hb ht =>
    obtain ⟨hs, _⟩ := (rebuildEnabled_iff s).1 hb
    rw [ht]
    exact h.rebuild hs
  | pushes _ w _ hp ht =>
    obtain ⟨hs, _⟩ := (pushEnabled_iff s).1 hp
    rw [ht]
    exact h.push hs (pushEnabled_room s hp) w
  | setsChannel _ a v _ _ ha ht => rw [ht]; exact h.setChannel ha v
  | setsTrackPower _ on _ ht => rw [ht]; exact h.setTrackPower on
  | starts _ _ _ _ hc ht => rw [ht]; exact h.start hc
  | stops _ _ hs ht => rw [ht]; exact h.stop hs
  | loads c _ hrun hs hc hp ht => rw [ht]; exact h.load hrun hs hc hp

theorem Inv.step {t : State} (ht : step s = .next t) : Inv t := h.takeTurn.effect (step_effect ht)

end Effects

theorem inv_reset : Inv State.reset where
  tableForm := rfl
  noFrameIsDirty := fun _ => rfl
  frameCurrent := nofun
  frameSize := rfl
  queueBound := Nat.zero_le _
  streamerNeedsRun := nofun
  haltAfterStreamer := nofun
  stopNeedsStreamer := nofun
  stoppedIdle := fun _ => ⟨rfl, rfl, rfl, rfl, rfl, rfl, rfl, rfl, rfl⟩
  runsLegal := nofun
  pcInTable := nofun
  shiftCount := nofun
  shiftBits := fun hne => absurd rfl hne
  frameNeedsTable := nofun
  idxInFrame := nofun
  pinsInGroup := nofun
  queueWords := nofun
  stallPlace := nofun

/-- What every step keeps holds after every run. -/
theorem run_keeps {P : State → Prop} (hstep : ∀ s t, P s → step s = .next t → P t) {k : Nat} {s t : State}
    (hs : P s) (ht : core.run k s = .next t) : P t := by
  induction k generalizing s with
  | zero => cases ht; exact hs
  | succ k ih =>
    obtain ⟨u, hu, hrest⟩ := run_succ_next ht
    exact ih (hstep s u hs hu) hrest

end Sys2Proof

namespace Sys2Proof.WholeMachine

/-- Settles O51, by the effects a step can have. -/
theorem everyStepKeepsTheInvariant : Obligations.EveryStepKeepsTheInvariant := by
  unfold Obligations.EveryStepKeepsTheInvariant
  intro s t hs ht
  exact hs.step ht

/-- Settles O50: right after reset the machine is stopped and idle, with an empty frame that is dirty. -/
theorem resetMeetsTheInvariant : Obligations.ResetMeetsTheInvariant := by
  unfold Obligations.ResetMeetsTheInvariant
  exact inv_reset

/-- Settles O52, by O50 and O51 along the run; the turns placed are not part of the invariant. -/
theorem everyInterleavingFromResetKeepsTheInvariant : Obligations.EveryInterleavingFromResetKeepsTheInvariant := by
  unfold Obligations.EveryInterleavingFromResetKeepsTheInvariant
  intro turns k t ht
  exact run_keeps (P := Inv) (fun _ _ h => h.step) (inv_reset.of_bookkeeping .none turns 0) ht

end Sys2Proof.WholeMachine

/-! ## What every step keeps

Of the effects a step can have, which ones touch the configuration, the table, the frame, the queue and the outputs.
-/

namespace Sys2Proof.Machine

/-- A row leaves the state of the other agents as it is (10_state.md R36). -/
theorem exec_row_frame {i : Instr} {s t : State} (hi : i.isRow = true) (h : exec i s = .next t) :
    t.ct = s.ct ∧ t.tp = s.tp ∧ t.dirty = s.dirty ∧ t.frame = s.frame ∧ t.frameValid = s.frameValid ∧ t.idx = s.idx
      ∧ t.run = s.run ∧ t.srun = s.srun ∧ t.haltReq = s.haltReq ∧ t.stopReq = s.stopReq
      ∧ t.cfg = s.cfg ∧ t.reply = s.reply ∧ t.turns = s.turns ∧ t.turnNo = s.turnNo := by
  obtain ⟨hwrites, _⟩ := exec_row_next i s t hi h
  rw [hwrites]
  exact ⟨rfl, rfl, rfl, rfl, rfl, rfl, rfl, rfl, rfl, rfl, rfl, rfl, rfl, rfl⟩

section Effects
variable {n : Turn} {s t : State} (he : Effect n s t)
include he

/-- Only a load writes the configuration (20_memory.md R62). -/
theorem Effect.cfg_cases :
    t.cfg = s.cfg
    ∨ ∃ c, n = .load c ∧ s.run = false ∧ s.srun = false ∧ cfgLegal c = true
        ∧ (s.cfg.prog ≠ [] → Cfg.sameParams s.cfg c = true) ∧ t.cfg = c := by
  cases he
  case runsRow i _ _ _ hi ht =>
    obtain ⟨_, _, _, _, _, _, _, _, _, _, hcfg, _⟩ := exec_row_frame hi ht
    exact .inl hcfg
  case loads c hn hrun hs hc hp ht => exact .inr ⟨c, hn, hrun, hs, hc, hp, by rw [ht, placeCfg_cfg]⟩
  all_goals subst t; exact .inl rfl

/-- Only SET_CHANNEL writes the table (10_state.md R29). -/
theorem Effect.ct_cases :
    t.ct = s.ct
    ∨ ∃ w a v, Presents n w ∧ decodeCommand w = .ok (.setChannel a v) ∧ a.toNat < Config.nChannels
        ∧ t.ct = Memory.write s.ct a.toNat v ∧ t.dirty = true := by
  cases he
  case runsRow i _ _ _ hi ht =>
    obtain ⟨hct, _⟩ := exec_row_frame hi ht
    exact .inl hct
  case setsChannel w a v hn hw ha ht => subst t; exact .inr ⟨w, a, v, hn, hw, ha, rfl, rfl⟩
  all_goals subst t; exact .inl rfl

/-- Only the rebuild clears `DIRTY`, and only the rebuild and a load write the frame. -/
theorem Effect.frame_cases :
    ((∃ f, n = .streamer f) ∧ rebuildEnabled s = true ∧ t = rebuildFrame s)
    ∨ ((s.srun = false ∨ t.frame = s.frame) ∧ (s.dirty = true → t.dirty = true)) := by
  cases he
  case runsRow i _ _ _ hi ht =>
    obtain ⟨_, _, hdirty, hframe, _⟩ := exec_row_frame hi ht
    exact .inr ⟨.inr hframe, fun hd => hdirty.trans hd⟩
  case rebuilds f hn hb ht => exact .inl ⟨⟨f, hn⟩, hb, ht⟩
  case loads _ _ _ hs _ _ ht => subst t; exact .inr ⟨.inl hs, id⟩
  case setsChannel => subst t; exact .inr ⟨.inr rfl, fun _ => rfl⟩
  case setsTrackPower => subst t; exact .inr ⟨.inr rfl, fun _ => rfl⟩
  all_goals subst t; exact .inr ⟨.inr rfl, id⟩

/-- What happens to the queue (20_memory.md R55). -/
theorem Effect.q_cases :
    t.q = s.q
    ∨ (n = .tick ∧ ∃ w, s.q = w :: t.q)
    ∨ ((∃ f, n = .streamer f) ∧ s.q.length < s.cfg.qdepth ∧ ∃ w, t.q = s.q ++ [w])
    ∨ (t.q = [] ∧ n = .tick ∧ s.run = true ∧ t.run = false)
    ∨ (t.q = [] ∧ s.run = false ∧ t.run = true) := by
  cases he
  case runsRow i hn _ _ hi ht =>
    obtain ⟨_, ⟨rfl, _⟩ | ⟨_, _, hq | hpop, _⟩⟩ := exec_row_next i s t hi ht
    · exact .inl rfl
    · exact .inl hq
    · exact .inr (.inl ⟨hn, hpop⟩)
  case halts hn hrun _ _ ht => subst t; exact .inr (.inr (.inr (.inl ⟨rfl, hn, hrun, rfl⟩)))
  case pushes f w hn hp ht =>
    subst t
    exact .inr (.inr (.inl ⟨⟨f, hn⟩, (queueHasRoom_iff s).1 (pushEnabled_room s hp), _, rfl⟩))
  case starts w _ hrun _ _ ht => subst t; exact .inr (.inr (.inr (.inr ⟨rfl, hrun, rfl⟩)))
  all_goals subst t; exact .inl rfl

/-- Another agent's turn leaves a running automaton running, its outputs and `DLY` as they are. -/
theorem Effect.of_not_tick (hrun : s.run = true) (hn : n ≠ .tick) :
    outputs t = outputs s ∧ t.run = true ∧ t.dly = s.dly := by
  cases he
  case countsDown htick _ _ _ => exact absurd htick hn
  case halts htick _ _ _ _ => exact absurd htick hn
  case runsRow _ htick _ _ _ _ => exact absurd htick hn
  case starts _ _ hstop _ _ _ => exact absurd (hrun.symm.trans hstop) (by decide)
  case loads _ _ hstop _ _ _ _ => exact absurd (hrun.symm.trans hstop) (by decide)
  all_goals subst t; exact ⟨rfl, hrun, rfl⟩

/-- A stopped machine keeps its outputs but for the START that clears them, which alone sets `RUN`. -/
theorem Effect.of_stopped (hrun : s.run = false) :
    outputs t = outputs s ∧ t.run = false ∨ outputs t = (0#2, false) := by
  cases he
  case countsDown hon _ _ => exact absurd (hon.symm.trans hrun) (by decide)
  case runsRow hon _ _ _ => exact absurd (hon.symm.trans hrun) (by decide)
  case halts => subst t; exact .inr rfl
  case starts => subst t; exact .inr rfl
  all_goals subst t; exact .inl ⟨rfl, hrun⟩

end Effects

end Sys2Proof.Machine

namespace Sys2Proof.WholeMachine

open Sys2Proof.Machine

/-- Settles O17, by the registers a row may write. -/
theorem rowsLeaveOtherAgentsState : Obligations.RowsLeaveOtherAgentsState := by
  unfold Obligations.RowsLeaveOtherAgentsState
  intro i s t hi h
  obtain ⟨hct, hrest⟩ := exec_row_frame hi h
  exact ⟨fun a => by rw [hct], hrest⟩

/-- Settles O54: only a load writes `CFG`, and only while stopped. -/
theorem configurationIsConstantWhileRunning : Obligations.ConfigurationIsConstantWhileRunning := by
  unfold Obligations.ConfigurationIsConstantWhileRunning
  intro s t h
  rcases (step_effect h).cfg_cases with hcfg | ⟨c, hn, hrun, hsrun, _⟩
  · rw [takeTurn_cfg] at hcfg
    exact ⟨fun _ => hcfg, fun _ => hcfg⟩
  · rw [takeTurn_run] at hrun
    rw [takeTurn_srun] at hsrun
    exact ⟨fun hon => by simp [hrun, hsrun] at hon, fun hno => absurd hn (hno c)⟩

/-- Settles O60: a load after the first keeps the parameters, and every other step keeps `CFG`. -/
theorem parametersAreFixedOnceLoaded : Obligations.ParametersAreFixedOnceLoaded := by
  unfold Obligations.ParametersAreFixedOnceLoaded
  intro s t hloaded h
  rcases (step_effect h).cfg_cases with hcfg | ⟨c, _, _, _, hc, hsame, rfl⟩
  · rw [hcfg, takeTurn_cfg]
    exact ⟨hloaded, rfl, rfl, rfl, rfl, rfl, rfl, rfl, rfl⟩
  · rw [takeTurn_cfg] at hsame
    obtain ⟨hn, hw, hcy, hq, hv, hsb, ha, hp⟩ := (sameParams_iff _ _).1 (hsame hloaded)
    exact ⟨cfgLegal_prog_ne_nil hc, hv.symm, hsb.symm, hn.symm, hw.symm, hq.symm, hcy.symm, ha.symm, hp.symm⟩

/-- Settles O55: the table changes by the write of SET_CHANNEL only, which leaves every other entry alone. -/
theorem onlySetChannelWritesTheTable : Obligations.OnlySetChannelWritesTheTable := by
  unfold Obligations.OnlySetChannelWritesTheTable
  intro s t a hwf h hread
  rcases (step_effect h).ct_cases with hct | ⟨w, b, v, hn, hw, hb, hct, hdirty⟩
  · rw [hct, takeTurn_ct] at hread
    exact absurd rfl hread
  · rw [takeTurn_ct] at hct
    obtain rfl : a = b.toNat := by
      by_contra hab
      exact hread (by rw [hct, Memory.read_write_other _ _ _ _ hab])
    have hv : Memory.read t.ct b.toNat = v := by rw [hct, Memory.read_write_same _ 0 _ _ hwf]
    refine ⟨hb, hdirty, w, hn, ?_⟩
    rw [hv, BitVec.ofNat_toNat, BitVec.setWidth_eq, hw]

/-- Settles O56: the rebuild is the one effect that clears `DIRTY`. -/
theorem dirtyIsClearedOnlyByTheRebuild : Obligations.DirtyIsClearedOnlyByTheRebuild := by
  unfold Obligations.DirtyIsClearedOnlyByTheRebuild
  intro s t h hset hclear
  rcases (step_effect h).frame_cases with ⟨hn, hb, rfl⟩ | ⟨_, hkeep⟩
  · obtain ⟨hsrun, hstop, hidx, _⟩ := (rebuildEnabled_iff _).1 hb
    rw [takeTurn_srun] at hsrun
    rw [takeTurn_stopReq] at hstop
    rw [takeTurn_idx] at hidx
    exact ⟨hn, hsrun, hstop, hidx, rfl, rfl⟩
  · rw [takeTurn_dirty] at hkeep
    exact absurd (hclear.symm.trans (hkeep hset)) (by decide)

/-- Settles O57: while the Streamer runs no load writes the frame, so the rebuild did. -/
theorem frameChangesOnlyBetweenPasses : Obligations.FrameChangesOnlyBetweenPasses := by
  unfold Obligations.FrameChangesOnlyBetweenPasses
  intro s t hsrun h hframe
  rcases (step_effect h).frame_cases with ⟨_, hb, rfl⟩ | ⟨hstop | hkeep, _⟩
  · obtain ⟨_, _, hidx, _⟩ := (rebuildEnabled_iff _).1 hb
    rw [takeTurn_idx] at hidx
    simp [hidx]
  · rw [takeTurn_srun] at hstop
    exact absurd (hsrun.symm.trans hstop) (by decide)
  · rw [takeTurn_frame] at hkeep
    exact absurd hkeep hframe

/-- Settles O58, by what each effect does to the queue. -/
theorem queueIsFirstInFirstOut : Obligations.QueueIsFirstInFirstOut := by
  unfold Obligations.QueueIsFirstInFirstOut
  intro s t h
  simpa using (step_effect h).q_cases

end Sys2Proof.WholeMachine

/-! ## The tick and the output trace (40_timing_automaton.md R101, R103)

A row holds its outputs until its ticks are over, whoever moves in between; and the trace of a run in which every agent
moves, from what one step adds to it. -/

namespace Sys2Proof.Machine

/-! ### Ticks -/

theorem automatonTick_stopped {s : State} (hrun : s.run = false) : automatonTick s = .next s := by
  simp [automatonTick, hrun]

/-- Within a row a tick counts `DLY` down (40_timing_automaton.md R101). -/
theorem automatonTick_countDown {s : State} (hrun : s.run = true) (hdly : s.dly ≠ 0#11) :
    automatonTick s = .next { s with dly := s.dly - 1#11 } := by
  simp [automatonTick, hrun, hdly]

theorem runTicks_succ_of_next {n : Nat} {s t : State} (h : automatonTick s = .next t) :
    runTicks (n + 1) s = runTicks n t := by
  rw [runTicks, h]

theorem runTicks_add {m n : Nat} {s t : State} (h : runTicks m s = .next t) : runTicks (m + n) s = runTicks n t := by
  induction m generalizing s with
  | zero => cases h; rw [Nat.zero_add]
  | succ m ih =>
    rw [runTicks] at h
    rw [Nat.succ_add, runTicks]
    cases hs : automatonTick s with
    | next u => rw [hs] at h; exact ih h
    | fault r => rw [hs] at h; cases h
    | refused r => rw [hs] at h; cases h

theorem toNat_sub_one {w : Nat} {x : BitVec w} (hx : x ≠ 0#w) : (x - 1#w).toNat = x.toNat - 1 := by
  rw [← ofNat_toNat_sub_one hx, BitVec.toNat_ofNat]
  exact Nat.mod_eq_of_lt ((Nat.sub_le _ _).trans_lt x.isLt)

theorem ne_zero_of_toNat_pos {w : Nat} {x : BitVec w} (hx : 0 < x.toNat) : x ≠ 0#w := by
  rintro rfl
  simp at hx

/-- Ticks up to `DLY` count it down and do nothing else. -/
theorem runTicks_within_row {n : Nat} {s : State} (hrun : s.run = true) (hn : n ≤ s.dly.toNat) :
    runTicks n s = .next { s with dly := BitVec.ofNat 11 (s.dly.toNat - n) } := by
  induction n generalizing s with
  | zero => simp [runTicks]
  | succ n ih =>
    have hdly : s.dly ≠ 0#11 := ne_zero_of_toNat_pos (Nat.zero_lt_of_lt hn)
    have hless : (s.dly - 1#11).toNat = s.dly.toNat - 1 := toNat_sub_one hdly
    have hrest := ih (s := { s with dly := s.dly - 1#11 }) hrun (by rw [hless]; omega)
    rw [runTicks_succ_of_next (automatonTick_countDown hrun hdly), hrest]
    simp only [hless, Nat.sub_sub, Nat.add_comm 1 n]

/-! ### The outputs within a row -/

@[simp] theorem outputs_takeTurn (s : State) : outputs (takeTurn s) = outputs s := by simp [outputs]

theorem step_of_tick {s : State} (hn : nextTurn s = .tick) : step s = automatonTick (takeTurn s) := by
  rw [step_eq_runTurn, hn, runTurn]

/-- How many ticks of a running automaton the next step is: one or none. -/
def isTick (s : State) : Nat := if nextTurn s = .tick ∧ s.run = true then 1 else 0

theorem tickCount_succ_of_step {n : Nat} {s t : State} (h : step s = .next t) :
    tickCount (n + 1) s = isTick s + tickCount n t := by
  rw [tickCount, h, isTick]

/-- A step of a running automaton that is not the first tick of a row holds the outputs. -/
theorem step_within_row {s t : State} (hrun : s.run = true) (h : step s = .next t) (hdly : isTick s ≤ s.dly.toNat) :
    outputs t = outputs s ∧ t.run = true ∧ t.dly.toNat = s.dly.toNat - isTick s := by
  by_cases hn : nextTurn s = .tick
  · have hone : isTick s = 1 := if_pos ⟨hn, hrun⟩
    have hpos : s.dly ≠ 0#11 := ne_zero_of_toNat_pos (by omega)
    have hrun' : (takeTurn s).run = true := by rw [takeTurn_run, hrun]
    rw [step_of_tick hn, automatonTick_countDown hrun' (by rwa [takeTurn_dly])] at h
    cases h
    exact ⟨outputs_takeTurn s, hrun', by rw [hone, takeTurn_dly, toNat_sub_one hpos]⟩
  · have hnone : isTick s = 0 := if_neg fun hc => hn hc.1
    obtain ⟨hout, hon, hd⟩ := (step_effect h).of_not_tick (by rw [takeTurn_run, hrun]) hn
    exact ⟨by rw [hout, outputs_takeTurn], hon, by rw [hd, hnone, takeTurn_dly, Nat.sub_zero]⟩

/-! ### The trace -/

section Trace
variable {n : Nat} {s t u v : State} {outs : List (BitVec 2 × Bool)}

theorem runTrace_succ_of_step (h : step s = .next u) : runTrace (n + 1) outs s = runTrace n (observe outs s u) u := by
  rw [runTrace, h]

/-- The trace of a longer run goes on from that of the shorter. -/
theorem runTrace_add {m : Nat} (h : core.run n s = .next t) :
    runTrace (n + m) outs s = runTrace m (runTrace n outs s) t := by
  induction n generalizing s outs with
  | zero => cases h; rw [Nat.zero_add, runTrace]
  | succ n ih =>
    obtain ⟨u, hu, hrest⟩ := run_succ_next h
    rw [Nat.succ_add, runTrace_succ_of_step hu, ih hrest, runTrace_succ_of_step hu]

theorem observe_length (hrun : s.run = true) : (observe outs s t).length = outs.length + isTick s := by
  by_cases hn : nextTurn s = .tick
  · rw [observe_tick outs s t hrun hn, isTick, if_pos ⟨hn, hrun⟩, List.length_append, List.length_singleton]
  · rw [observe_other outs s t hrun hn, isTick, if_neg fun hc => hn hc.1, Nat.add_zero]

/-- While the automaton runs the trace has one element more for each tick. -/
theorem runTrace_length (h : core.run n s = .next t) (hrun : ∀ j v, j ≤ n → core.run j s = .next v → v.run = true) :
    (runTrace n outs s).length = outs.length + tickCount n s := by
  induction n generalizing s outs with
  | zero => rfl
  | succ n ih =>
    obtain ⟨u, hu, hrest⟩ := run_succ_next h
    have hon : s.run = true := hrun 0 s (Nat.zero_le _) rfl
    have hrun' : ∀ j v, j ≤ n → core.run j u = .next v → v.run = true := fun j v hj hv =>
      hrun (j + 1) v (Nat.succ_le_succ hj) ((run_succ_of_step hu).trans hv)
    rw [runTrace_succ_of_step hu, ih hrest hrun', observe_length hon, tickCount_succ_of_step hu, Nat.add_assoc]

/-- A step within a row adds the outputs the row holds, once for a tick. -/
theorem observe_within_row (hrun : s.run = true) (hout : outputs t = outputs s) :
    observe outs s t = outs ++ List.replicate (isTick s) (outputs s) := by
  by_cases hn : nextTurn s = .tick
  · rw [observe_tick outs s t hrun hn, hout, isTick, if_pos ⟨hn, hrun⟩, List.replicate_one]
  · rw [observe_other outs s t hrun hn, isTick, if_neg fun hc => hn hc.1, List.replicate_zero, List.append_nil]

/-- A run that has no more ticks than the row in progress lasts holds the outputs, and its trace repeats them. -/
theorem run_within_row (hrun : s.run = true) (h : core.run n s = .next t) (hn : tickCount n s ≤ s.dly.toNat) :
    runTrace n outs s = outs ++ List.replicate (tickCount n s) (outputs s)
      ∧ outputs t = outputs s ∧ t.run = true ∧ t.dly.toNat = s.dly.toNat - tickCount n s := by
  induction n generalizing s outs with
  | zero => cases h; exact ⟨(List.append_nil outs).symm, rfl, hrun, rfl⟩
  | succ n ih =>
    obtain ⟨u, hu, hrest⟩ := run_succ_next h
    rw [tickCount_succ_of_step hu] at hn ⊢
    obtain ⟨hout, hon, hdly⟩ := step_within_row hrun hu (by omega)
    obtain ⟨htrace, hout', hon', hdly'⟩ := ih (outs := observe outs s u) hon hrest (by omega)
    refine ⟨?_, hout'.trans hout, hon', by omega⟩
    rw [runTrace_succ_of_step hu, htrace, hout, observe_within_row hrun hout, List.append_assoc,
      List.replicate_append_replicate]

theorem outputs_of_stopped (hinv : Inv s) (hrun : s.run = false) : outputs s = (0#2, false) := by
  obtain ⟨hpins, hside, _⟩ := hinv.stoppedIdle hrun
  rw [outputs, hpins, hside]

/-- The step that sets `RUN` leaves the outputs (0, 0). -/
theorem outputs_of_start (h : step s = .next t) (hrun : s.run = false) (hon : t.run = true) :
    outputs t = (0#2, false) := by
  rcases (step_effect h).of_stopped (by rw [takeTurn_run, hrun]) with ⟨_, hoff⟩ | hout
  · exact absurd (hon.symm.trans hoff) (by decide)
  · exact hout

end Trace

end Sys2Proof.Machine

namespace Sys2Proof.WholeMachine

open Sys2Proof.Machine

/-- Settles O20, by induction on the ticks. -/
theorem outputsHoldWhileRowTimesOut : Obligations.OutputsHoldWhileRowTimesOut := by
  unfold Obligations.OutputsHoldWhileRowTimesOut
  intro n s
  exact runTicks_within_row

/-- Settles O21: a turn of another agent changes no output of a running automaton, nor does a tick within a row; and
the outputs of a stopped machine are those that START leaves. -/
theorem outputsChangeOnlyAtRowBoundaries : Obligations.OutputsChangeOnlyAtRowBoundaries := by
  unfold Obligations.OutputsChangeOnlyAtRowBoundaries
  intro s t hinv h hchange
  cases hrun : s.run with
  | false =>
    rcases (step_effect h).of_stopped (by rw [takeTurn_run, hrun]) with ⟨hout, _⟩ | hout
    · exact absurd (hout.trans (outputs_takeTurn s)) hchange
    · exact absurd (hout.trans (outputs_of_stopped hinv hrun).symm) hchange
  | true =>
    have hrow : ¬ isTick s ≤ s.dly.toNat := fun hdly => hchange (step_within_row hrun h hdly).1
    have htick : nextTurn s = .tick := by
      by_contra hn
      exact hrow (by rw [isTick, if_neg fun hc => hn hc.1]; exact Nat.zero_le _)
    rw [isTick, if_pos ⟨htick, hrun⟩] at hrow
    exact ⟨htick, rfl, BitVec.eq_of_toNat_eq (by simpa using hrow)⟩

/-- Settles O59, by what one step adds to the trace, along runs in which `RUN` stays 1 and along runs within one row. -/
theorem outputTraceOfAnyInterleaving : Obligations.OutputTraceOfAnyInterleaving := by
  unfold Obligations.OutputTraceOfAnyInterleaving
  refine ⟨?start, fun s => outputs_of_stopped, ?step, ?counted, ?within, ?row⟩
  case start =>
    intro s t outs h hrun hon
    exact ⟨observe_start outs s t hrun hon, outputs_of_start h hrun hon⟩
  case step =>
    intro s t outs h hrun
    refine ⟨observe_tick outs s t hrun, fun hn => ⟨observe_other outs s t hrun hn, ?_⟩⟩
    obtain ⟨hout, _⟩ := (step_effect h).of_not_tick (by rw [takeTurn_run, hrun]) hn
    rw [hout, outputs_takeTurn]
  case counted =>
    intro n s u t outs hu hrun hon ht hthroughout
    have hbegin (m : Nat) (outs) : runTrace (m + 1) outs s = runTrace m [] u := by
      rw [runTrace_succ_of_step hu, observe_start outs s u hrun hon]
    have hlen : (runTrace n [] u).length = tickCount n u := by
      rw [runTrace_length ht hthroughout, List.length_nil, Nat.zero_add]
    refine ⟨by rw [hbegin, hlen], fun v hn hv => ?_⟩
    have hnext : runTrace (n + 1) [] u = runTrace n [] u ++ [outputs v] := by
      rw [runTrace_add ht, runTrace_succ_of_step hv, runTrace, observe_tick _ t v (hthroughout n t le_rfl ht) hn]
    have hlast : (runTrace (n + 1) [] u)[tickCount n u]? = some (outputs v) := by
      rw [hnext, ← hlen, List.getElem?_concat_length]
    exact ⟨by rw [hbegin, hlast], by rw [outAt, hbegin, hlast]⟩
  case within =>
    intro n s t outs hrun ht hn
    obtain ⟨htrace, hout, hon, hdly⟩ := run_within_row (outs := outs) hrun ht hn
    obtain ⟨htrace', _⟩ := run_within_row (outs := []) hrun ht hn
    exact ⟨htrace, fun k hk => by rw [outAt, htrace', List.nil_append, List.getElem?_replicate, if_pos hk],
      hout, hon, hdly⟩
  case row =>
    intro n s u t outs hrun hn hu hon ht hticks
    obtain ⟨htrace, hout, _⟩ := run_within_row (outs := outs ++ [outputs u]) hon ht hticks
    refine ⟨?_, hout⟩
    rw [runTrace_succ_of_step hu, observe_tick outs s u hrun hn, htrace, List.append_assoc, List.replicate_succ]
    rfl

end Sys2Proof.WholeMachine

/-! ## Progress and the turns of the schedule (40_timing_automaton.md R101, 60_exceptions.md R203)

Which steps answer a next state: every legal row, hence every tick and every Streamer step of a sound machine, and every
command but START; and what the next turn runs. -/

namespace Sys2Proof.Machine

/-! ### Rows and ticks -/

theorem rowLegal_iff (c : Cfg) (i : Instr) : rowLegal c i = true ↔ i.isRow = true ∧ i.wellFormed c = true := by
  rw [rowLegal, Bool.and_eq_true]

theorem rowWordLegal_iff (c : Cfg) (w : RowWord) :
    rowWordLegal c w = true ↔ ∃ i, decodeRow w = .ok i ∧ rowLegal c i = true := by
  rw [rowWordLegal]
  cases decodeRow w with
  | ok i => simp
  | error e => simp

theorem cfgLegal_row {c : Cfg} (h : cfgLegal c = true) : ∀ w ∈ c.prog, rowWordLegal c w = true := by
  obtain ⟨_, ht⟩ := (cfgLegal_iff c).1 h
  simp only [tableLegal, Bool.and_eq_true, List.all_eq_true, and_assoc] at ht
  obtain ⟨_, _, hrows, _⟩ := ht
  exact hrows

theorem exec_shift_stalls {h : RowHead} {n : BitVec 2} {d : Bool} {s : State}
    (hw : (Instr.shift h n d).wellFormed s.cfg = true) (ha : autopull s = none) :
    exec (.shift h n d) s = .next { s with stalled := true } := by
  rw [exec, execShift, if_pos (rowLegal_of_wellFormed rfl hw), ha]

/-- A legal row answers a next state; a SHIFT with nothing to pull answers the stall. -/
theorem exec_of_rowLegal {i : Instr} {s : State} (hl : rowLegal s.cfg i = true) : ∃ t, exec i s = .next t := by
  obtain ⟨hrow, hw⟩ := (rowLegal_iff s.cfg i).1 hl
  cases i with
  | nop | setp | ldc | jmp | jbit | jctr =>
    simp only [exec, execNop, execSetp, execLdc, execJmp, execJbit, execJctr, runRow_legal _ _ _ s hl]
    exact ⟨_, rfl⟩
  | shift h n d =>
    cases ha : autopull s with
    | none => exact ⟨_, exec_shift_stalls hw ha⟩
    | some u => exact ⟨_, exec_shift_of_autopull hw ha⟩
  | rowReserved x => cases hw
  | _ => cases hrow

theorem runFetchedRow_of_ok {s : State} {w : RowWord} {i : Instr} (hw : s.cfg.prog[s.pc.toNat]? = some w)
    (hi : decodeRow w = .ok i) : runFetchedRow s = exec i s := by
  rw [runFetchedRow, hw]
  simp only [hi]

theorem runFetchedRow_answers {s : State} (hc : cfgLegal s.cfg = true) (hpc : s.pc.toNat < s.cfg.progLen) :
    ∃ t, runFetchedRow s = .next t := by
  have hw := List.getElem?_eq_getElem hpc
  obtain ⟨i, hi, hl⟩ := (rowWordLegal_iff _ _).1 (cfgLegal_row hc _ (List.getElem_mem hpc))
  rw [runFetchedRow_of_ok hw hi]
  exact exec_of_rowLegal hl

theorem automatonTick_answers {s : State} (h : Inv s) : ∃ t, automatonTick s = .next t := by
  cases hrun : s.run with
  | false => exact ⟨_, automatonTick_stopped hrun⟩
  | true =>
    by_cases hdly : s.dly = 0#11
    · cases ha : haltAccepted s with
      | true => exact ⟨_, automatonTick_halt hrun hdly ha⟩
      | false =>
        have hno : ¬ (s.haltReq = true ∧ (s.pc = 0#5 ∨ s.stalled = true)) := by
          rw [← haltAccepted_iff, ha]
          decide
        rw [automatonTick_rowBoundary hrun hdly hno]
        exact runFetchedRow_answers (h.runsLegal hrun) (h.pcInTable hrun)
    · exact ⟨_, automatonTick_countDown hrun hdly⟩

/-! ### The Streamer (44_streamer_commands.md R184, R187 to R189) -/

theorem exec_push_of_room {w : Word} {s : State} (hroom : s.q.length < s.cfg.qdepth) :
    exec (.push w) s = .next (queuePush (portWord s.cfg.wordWidth w) s) := by
  rw [exec, execPush, if_pos ((queueHasRoom_iff s).2 hroom)]

theorem exec_push_of_full {w : Word} {s : State} (hfull : s.cfg.qdepth ≤ s.q.length) :
    exec (.push w) s = .next s := by
  rw [exec, execPush, if_neg fun hroom => Nat.not_lt.2 hfull ((queueHasRoom_iff s).1 hroom)]

theorem exec_rebuild_of_enabled {s : State} (h : rebuildEnabled s = true) :
    exec .rebuild s = .next (rebuildFrame s) := by
  rw [exec, execRebuild, if_pos h]

theorem exec_rebuild_of_not_enabled {s : State} (h : ¬ rebuildEnabled s = true) : exec .rebuild s = .next s := by
  rw [exec, execRebuild, if_neg h]

theorem streamerPush_of_word {s : State} {w : Word} (hroom : s.q.length < s.cfg.qdepth)
    (hw : s.frame[s.idx]? = some w) :
    streamerPush s = .next (advanceIdx (queuePush (portWord s.cfg.wordWidth w) s)) := by
  rw [streamerPush, hw]
  simp only [exec_push_of_room hroom]

section Turn
variable {s : State}

theorem streamerStep_of_not_srun (f : Bool) (h : s.srun = false) : streamerStep f s = .next s := by
  rw [streamerStep, if_pos h]

variable (hsrun : s.srun = true)
include hsrun

theorem streamerStep_of_stopReq (f : Bool) (hstop : s.stopReq = true) (hno : f = false ∨ ¬ pushEnabled s = true) :
    streamerStep f s = .next (streamerStop s) := by
  have hf : ¬ (f && pushEnabled s) = true := by
    rw [Bool.and_eq_true]
    rintro ⟨hf, hp⟩
    rcases hno with hno | hno
    · exact absurd (hf.symm.trans hno) (by decide)
    · exact hno hp
  rw [streamerStep, if_neg (by simp [hsrun]), if_pos hstop, if_neg hf]

theorem streamerStep_of_rebuild (f : Bool) (hb : rebuildEnabled s = true) :
    streamerStep f s = exec .rebuild s := by
  obtain ⟨_, hstop, _⟩ := (rebuildEnabled_iff s).1 hb
  rw [streamerStep, if_neg (by simp [hsrun]), if_neg (by simp [hstop]), if_pos hb]

theorem streamerStep_of_push (f : Bool) (hp : pushEnabled s = true) (hf : s.stopReq = true → f = true) :
    streamerStep f s = streamerPush s := by
  obtain ⟨_, _, _, ⟨hstop, hno⟩ | ⟨hstop, _⟩⟩ := (pushEnabled_iff s).1 hp
  · have hb : ¬ rebuildEnabled s = true := fun hb => by
      obtain ⟨_, _, hidx, hdirty⟩ := (rebuildEnabled_iff s).1 hb
      exact hno ⟨hidx, hdirty⟩
    rw [streamerStep, if_neg (by simp [hsrun]), if_neg (by simp [hstop]), if_neg hb, if_pos hp]
  · rw [streamerStep, if_neg (by simp [hsrun]), if_pos hstop, if_pos (by simp [hf hstop, hp])]

theorem streamerStep_waits (f : Bool) (hstop : s.stopReq = false) (hb : ¬ rebuildEnabled s = true)
    (hp : ¬ pushEnabled s = true) : streamerStep f s = .next s := by
  rw [streamerStep, if_neg (by simp [hsrun]), if_neg (by simp [hstop]), if_neg hb, if_neg hp]

end Turn

theorem streamerStep_answers {s : State} (h : Inv s) (f : Bool) : ∃ t, streamerStep f s = .next t := by
  cases hsrun : s.srun with
  | false => exact ⟨_, streamerStep_of_not_srun f hsrun⟩
  | true =>
    have hidx : s.idx < s.frame.length := h.frameSize ▸ h.idxInFrame hsrun
    have hpush (hp : pushEnabled s = true) : ∃ t, streamerPush s = .next t :=
      ⟨_, streamerPush_of_word ((queueHasRoom_iff s).1 (pushEnabled_room s hp)) (List.getElem?_eq_getElem hidx)⟩
    by_cases hp : pushEnabled s = true
    · by_cases hf : s.stopReq = true → f = true
      · rw [streamerStep_of_push hsrun f hp hf]
        exact hpush hp
      · obtain ⟨hstop, hf⟩ := Classical.not_imp.1 hf
        exact ⟨_, streamerStep_of_stopReq hsrun f hstop (.inl (by simpa using hf))⟩
    · cases hstop : s.stopReq with
      | true => exact ⟨_, streamerStep_of_stopReq hsrun f hstop (.inr hp)⟩
      | false =>
        by_cases hb : rebuildEnabled s = true
        · exact ⟨_, (streamerStep_of_rebuild hsrun f hb).trans (exec_rebuild_of_enabled hb)⟩
        · exact ⟨_, streamerStep_waits hsrun f hstop hb hp⟩

/-! ### Commands (30_encoding.md R87, R88, R92) -/

/-- Every command but START answers a next state, whatever the state. -/
theorem exec_command_answers {w : CmdWord} {i : Instr} (s : State) (hw : decodeCommand w = .ok i) (hi : i ≠ .start) :
    ∃ t, exec i s = .next t := by
  have hport := encode_of_decodeCommand hw
  cases i with
  | setChannel a v =>
    by_cases ha : a.toNat < Config.nChannels
    · exact ⟨_, exec_setChannel_of_channel ha v s⟩
    · exact ⟨_, exec_setChannel_of_badAddress ha v s⟩
  | setTrackPower | stop | cmdReserved5 | cmdReserved6 | cmdReserved7 => exact ⟨_, rfl⟩
  | start => exact absurd rfl hi
  | rebuild =>
    by_cases hb : rebuildEnabled s = true
    · exact ⟨_, exec_rebuild_of_enabled hb⟩
    · exact ⟨_, exec_rebuild_of_not_enabled hb⟩
  | _ => cases hport

theorem presentCommand_answers {w : CmdWord} (s : State) (hw : decodeCommand w ≠ .ok .start) :
    ∃ t, presentCommand w s = .next t := by
  cases hd : decodeCommand w with
  | error e => exact ⟨_, presentCommand_of_error s hd⟩
  | ok i =>
    by_cases hi : i = .rebuild
    · exact ⟨_, presentCommand_of_rebuild s (hi ▸ hd)⟩
    · rw [presentCommand_of_ok s hd hi]
      exact exec_command_answers s hd fun hstart => hw (hstart ▸ hd)

/-- The command an API call stands for. -/
def callInstr : ApiCall → Instr
  | .setChannel address value => .setChannel address (BitVec.ofNat 8 (value % 256))
  | .setTrackPower on => .setTrackPower on
  | .start => .start
  | .stop => .stop

theorem decodeCommand_apiWord (c : ApiCall) : decodeCommand (apiWord c) = .ok (callInstr c) := by
  cases c with
  | setChannel address value => exact decodeCommand_apiWord_setChannel address value
  | setTrackPower on => exact decodeCommand_apiWord_setTrackPower on
  | start => decide
  | stop => decide

theorem callInstr_ne_rebuild (c : ApiCall) : callInstr c ≠ .rebuild := by
  cases c <;> exact nofun

theorem callInstr_eq_start {c : ApiCall} (h : callInstr c = .start) : c = .start := by
  cases c with
  | start => rfl
  | _ => cases h

theorem presentCommand_apiWord (c : ApiCall) (s : State) : presentCommand (apiWord c) s = exec (callInstr c) s :=
  presentCommand_of_ok s (decodeCommand_apiWord c) (callInstr_ne_rebuild c)

theorem step_of_api {s : State} {c : ApiCall} {rest : List Turn} (h : s.turns = .api c :: rest) :
    step s = exec (callInstr c) { s with turns := rest } := by
  rw [step_of_turns_cons s _ rest h]
  exact presentCommand_apiWord c _

theorem callFunction_of_isFunction {i : Instr} (s : State) (h : i.isFunction = true) :
    callFunction i s = exec i s := by
  rw [callFunction, if_pos h]

theorem callFunction_of_not_isFunction {i : Instr} (s : State) (h : i.isFunction = false) :
    callFunction i s = .refused .notAFunction := by
  rw [callFunction, if_neg (by simp [h])]

end Sys2Proof.Machine

namespace Sys2Proof.WholeMachine

open Sys2Proof.Machine

/-- Settles O53, by the turn: the invariant puts `PC` in a legal table and `IDX` in the frame. -/
theorem soundMachineNeverStops : Obligations.SoundMachineNeverStops := by
  unfold Obligations.SoundMachineNeverStops
  intro s hinv hturn
  rw [step_eq_runTurn]
  cases hn : nextTurn s with
  | tick => exact automatonTick_answers hinv.takeTurn
  | streamer f => exact streamerStep_answers hinv.takeTurn f
  | command w =>
    rw [hn] at hturn
    exact presentCommand_answers _ (of_decide_eq_true hturn)
  | api c =>
    rw [hn] at hturn
    have hc : c ≠ .start := of_decide_eq_true hturn
    refine presentCommand_answers _ fun hd => hc (callInstr_eq_start ?_)
    exact Except.ok.inj ((decodeCommand_apiWord c).symm.trans hd)
  | call i => rw [hn] at hturn; cases hturn
  | load c => rw [hn] at hturn; cases hturn

/-- Settles O5: with no halt accepted the tick fetches the row at `PC`. -/
theorem tickRunsTheFetchedRow : Obligations.TickRunsTheFetchedRow := by
  unfold Obligations.TickRunsTheFetchedRow
  intro s rest w i hturn hrun hdly hno hw hi
  rw [step_of_turns_cons s _ rest hturn]
  exact (automatonTick_rowBoundary (s := { s with turns := rest }) hrun hdly hno).trans (runFetchedRow_of_ok hw hi)

/-- Settles O6: an API call's word is never that of REBUILD. -/
theorem commandsAndCallsRunTheirInstruction : Obligations.CommandsAndCallsRunTheirInstruction := by
  unfold Obligations.CommandsAndCallsRunTheirInstruction
  intro s rest i
  refine ⟨fun w hturn hw hi => ?command, fun c hturn hc => ?api, fun hturn hi => ?call⟩
  case command =>
    rw [step_of_turns_cons s _ rest hturn]
    exact presentCommand_of_ok _ hw hi
  case api =>
    obtain rfl : callInstr c = i := Except.ok.inj ((decodeCommand_apiWord c).symm.trans hc)
    exact step_of_api hturn
  case call =>
    rw [step_of_turns_cons s _ rest hturn]
    exact callFunction_of_isFunction _ hi

/-- Settles O7: the two states differ only in the schedule, and the turn taken from it is the same. -/
theorem undecidedTurnIsTheFreeOne : Obligations.UndecidedTurnIsTheFreeOne := by
  unfold Obligations.UndecidedTurnIsTheFreeOne
  intro s hturns
  have hn : nextTurn s = Config.freeTurn s.turnNo := by rw [nextTurn, hturns]
  have ht : takeTurn s = { s with turns := [], turnNo := s.turnNo + 1 } := by rw [takeTurn, hturns]
  rw [step_eq_runTurn, hn, ht]
  exact (step_of_turns_cons { s with turns := [Config.freeTurn s.turnNo], turnNo := s.turnNo + 1 } _ [] rfl).symm

/-- Settles O18: a stopped automaton ignores the tick, and a row that times out counts it. -/
theorem tickBetweenRows : Obligations.TickBetweenRows := by
  unfold Obligations.TickBetweenRows
  intro s rest hturn
  rw [step_of_turns_cons s _ rest hturn]
  refine ⟨fun hrun => automatonTick_stopped (s := { s with turns := rest }) hrun, fun hrun hdly => ?_⟩
  rw [ofNat_toNat_sub_one hdly]
  exact automatonTick_countDown (s := { s with turns := rest }) hrun hdly

/-- Settles O35, by the rows of T-R186. -/
theorem streamerTakesTheEnabledStep : Obligations.StreamerTakesTheEnabledStep := by
  unfold Obligations.StreamerTakesTheEnabledStep
  intro s rest f hturn
  rw [step_of_turns_cons s _ rest hturn, runTurn]
  refine ⟨streamerStep_of_not_srun (s := { s with turns := rest }) f, ?stop, ?rebuild, ?push, ?waits⟩
  case stop =>
    intro hsrun hstop hno
    refine streamerStep_of_stopReq (s := { s with turns := rest }) hsrun f hstop ?_
    rcases hno with hf | hidx | hfull | hframe
    · exact .inl hf
    all_goals
      refine .inr fun hp => ?_
      obtain ⟨_, hvalid, hroom, hwhen⟩ := (pushEnabled_iff _).1 hp
    · simp [hstop, hidx] at hwhen
    · exact Nat.not_lt.2 hfull hroom
    · exact absurd (hvalid.symm.trans hframe) (by decide)
  case rebuild =>
    intro hsrun hstop hidx hdirty
    exact streamerStep_of_rebuild (s := { s with turns := rest }) hsrun f
      ((rebuildEnabled_iff _).2 ⟨hsrun, hstop, hidx, hdirty⟩)
  case push =>
    intro w hsrun hvalid hroom hwhen hw hlt
    have hp : pushEnabled { s with turns := rest } = true := by
      refine (pushEnabled_iff _).2 ⟨hsrun, hvalid, hroom, ?_⟩
      rcases hwhen with hwhen | ⟨hstop, hidx, _⟩
      · exact .inl hwhen
      · exact .inr ⟨hstop, hidx⟩
    have hf (hstop : s.stopReq = true) : f = true := by
      rcases hwhen with ⟨hno, _⟩ | ⟨_, _, hf⟩
      · exact absurd (hstop.symm.trans hno) (by decide)
      · exact hf
    rw [streamerStep_of_push (s := { s with turns := rest }) hsrun f hp hf,
      streamerPush_of_word (s := { s with turns := rest }) hroom hw, portWord_of_lt _ _ hlt]
    rfl
  case waits =>
    intro hsrun hstop hno hfull
    refine streamerStep_waits (s := { s with turns := rest }) hsrun f hstop (fun hb => ?_) (fun hp => ?_)
    · obtain ⟨_, _, hidx, hdirty⟩ := (rebuildEnabled_iff _).1 hb
      exact hno ⟨hidx, hdirty⟩
    · obtain ⟨_, _, hroom, _⟩ := (pushEnabled_iff _).1 hp
      exact Nat.not_lt.2 hfull hroom

/-- Settles O33, by whether the four conditions of the rebuild hold. -/
theorem rebuildResult : Obligations.RebuildResult := by
  unfold Obligations.RebuildResult
  intro s
  constructor
  · intro hsrun hstop hidx hdirty
    rw [exec_rebuild_of_enabled ((rebuildEnabled_iff s).2 ⟨hsrun, hstop, hidx, hdirty⟩)]
    rfl
  · intro hno
    refine exec_rebuild_of_not_enabled fun hb => ?_
    obtain ⟨hsrun, hstop, hidx, hdirty⟩ := (rebuildEnabled_iff s).1 hb
    simp [hsrun, hstop, hidx, hdirty] at hno

/-- Settles O34: a `W`-bit word goes through the port as it is. -/
theorem pushResult : Obligations.PushResult := by
  unfold Obligations.PushResult
  intro w s hw
  refine ⟨fun hroom => ?_, exec_push_of_full⟩
  rw [exec_push_of_room hroom, portWord_of_lt _ _ hw, queuePush]

/-- Settles O36: the Streamer stops before its first push, and the tick finds the halt request at row 0. -/
theorem stopRightAfterStartLeavesIdle : Obligations.StopRightAfterStartLeavesIdle := by
  unfold Obligations.StopRightAfterStartLeavesIdle
  intro s rest f hrun hsrun hc hturns
  obtain ⟨hp, ht⟩ := (cfgLegal_iff s.cfg).1 hc
  have hstart := (step_of_api hturns).trans
    (exec_start_of_stopped (s := { s with turns := .api .stop :: .streamer f :: .tick :: rest }) hsrun hrun hp ht)
  generalize hs1 : commandOk (startRun _) = s1 at hstart
  have hstop : step s1 = .next (commandOk { s1 with turns := .streamer f :: .tick :: rest, stopReq := true }) := by
    have hturns1 : s1.turns = .api .stop :: .streamer f :: .tick :: rest := by subst hs1; rfl
    have hsrun1 : s1.srun = true := by subst hs1; rfl
    exact (step_of_api hturns1).trans (exec_stop_of_srun (s := { s1 with turns := _ }) hsrun1)
  generalize hs2 : commandOk _ = s2 at hstop
  have hhalt : step s2 = .next (streamerStop { s2 with turns := .tick :: rest }) := by
    subst hs2 hs1
    rw [step_of_turns_cons _ _ _ rfl]
    refine streamerStep_of_stopReq rfl f rfl (.inr fun hpush => ?_)
    obtain ⟨_, _, _, ⟨hno, _⟩ | ⟨_, hidx⟩⟩ := (pushEnabled_iff _).1 hpush
    · cases hno
    · exact hidx rfl
  generalize hs3 : streamerStop _ = s3 at hhalt
  have htick : step s3 = .next (halt { s3 with turns := rest }) := by
    subst hs3 hs2 hs1
    rw [step_of_turns_cons _ _ _ rfl]
    exact automatonTick_halt rfl rfl rfl
  refine ⟨halt { s3 with turns := rest }, ?run, ?_⟩
  case run =>
    rw [run_succ_of_step hstart, run_succ_of_step hstop, run_succ_of_step hhalt, run_succ_of_step htick]
    rfl
  subst hs3 hs2 hs1
  exact ⟨rfl, rfl, rfl, rfl, rfl, rfl, rfl, rfl, rfl, rfl, rfl, rfl⟩

end Sys2Proof.WholeMachine

/-! ## Rows in time: the shift register as UNPACK, and the Selectrix bit cell

The bits that successive SHIFT rows take from a word are the word unpacked (43_word_packer.md R171); and a row of
`cyc + 1` ticks, from which the cell of table `SX` is put together (41_waveform_generators.md R131, R132). -/

namespace Sys2Proof.Machine

/-! ### SHIFT as UNPACK -/

theorem wordBits_getElem? (width w : Nat) {i : Nat} (hi : i < width) :
    (wordBits width w)[i]? = some (w.testBit (width - 1 - i)) := by
  simp [wordBits, hi]

@[simp] theorem wordBits_length (width w : Nat) : (wordBits width w).length = width := by simp [wordBits]

/-- The value of `n` bits of a word after its first `k`. -/
theorem bitsVal_wordBits_segment {width k n : Nat} (w : Nat) (h : k + n ≤ width) :
    bitsVal (((wordBits width w).drop k).take n) = w / 2 ^ (width - k - n) % 2 ^ n := by
  have hlen : (((wordBits width w).drop k).take n).length = n := by simp; omega
  refine Nat.eq_of_testBit_eq fun i => ?_
  rw [bitsVal_testBit, Nat.testBit_mod_two_pow, Nat.testBit_div_two_pow, List.getD_eq_getElem?_getD]
  by_cases hi : i < n
  · have hbit : width - 1 - (k + (n - 1 - i)) = i + (width - k - n) := by omega
    rw [List.getElem?_reverse (by omega), hlen, List.getElem?_take_of_lt (by omega), List.getElem?_drop,
      wordBits_getElem? width w (by omega), hbit, Option.getD_some, decide_eq_true hi, Bool.true_and]
  · rw [List.getElem?_eq_none (by simpa [hlen] using hi), decide_eq_false hi]
    rfl

/-- The top `n` bits of what is left of `w` after `k` bits. -/
theorem topBits_toNat_of_consumed {width k n : Nat} (w : Nat) (hn : n ≤ 2) (h : k + n ≤ width) :
    (topBits width n (w * 2 ^ k % 2 ^ width)).toNat = w / 2 ^ (width - k - n) % 2 ^ n := by
  refine Nat.eq_of_testBit_eq fun i => ?_
  rw [BitVec.testBit_toNat, Nat.testBit_mod_two_pow, Nat.testBit_div_two_pow]
  by_cases hi : i < n
  · have hlt : width - n + i < width := by omega
    have hge : k ≤ width - n + i := by omega
    have hbit : width - n + i - k = i + (width - k - n) := by omega
    rw [topBits_getLsbD _ _ _ _ (by omega), Nat.testBit_mod_two_pow, Nat.testBit_mul_two_pow, hbit]
    simp only [hlt, hge, decide_true, Bool.true_and]
  · by_cases hi2 : i < 2
    · rw [topBits_getLsbD _ _ _ _ hi2, decide_eq_false hi, Bool.false_and, Bool.false_and]
    · rw [BitVec.getLsbD_of_ge _ _ (by omega), decide_eq_false hi, Bool.false_and]

/-- What is left after `k` bits, shifted by `n` more, is what is left after `k + n`. -/
theorem shiftOut_of_consumed (width k n w : Nat) :
    shiftOut width n (w * 2 ^ k % 2 ^ width) = w * 2 ^ (k + n) % 2 ^ width := by
  rw [shiftOut, Nat.mod_mul_mod, Nat.mul_assoc, ← Nat.pow_add]

/-! ### A row in time -/

/-- A row occupies its first tick and as many more as `DLY` says; all but `DLY` stands from the first on. -/
theorem runTicks_row {s t : State} {k : Nat} (h : automatonTick s = .next t) (hrun : t.run = true)
    (hk : k ≤ t.dly.toNat) :
    runTicks (k + 1) s = .next { t with dly := BitVec.ofNat 11 (t.dly.toNat - k) } := by
  rw [runTicks_succ_of_next h, runTicks_within_row hrun hk]

/-! ### Table `SX` at 1 microsecond a tick (41_waveform_generators.md R131) -/

theorem sxTable_one : sxTable 1 1000 = some [0x30090101#32, 0x18270000#32] := by decide

theorem sxTable_two : sxTable 2 1000 = some [0x30090102#32, 0x18270000#32] := by decide

theorem sx_clockRow : decodeRow 0x18270000#32 = .ok (.nop ⟨true, true, 39#11⟩) := by decide

/-- The two rows of the table: the symbol shifted out with the clock low, and the clock high. -/
theorem sxTable_rows {n : Nat} {prog : List RowWord} (hn : n = 1 ∨ n = 2) (h : sxTable n 1000 = some prog) :
    ∃ w, prog = [w, 0x18270000#32] ∧ decodeRow w = .ok (.shift ⟨true, false, 9#11⟩ (BitVec.ofNat 2 n) true) := by
  rcases hn with rfl | rfl
  · cases sxTable_one.symm.trans h
    exact ⟨_, rfl, by decide⟩
  · cases sxTable_two.symm.trans h
    exact ⟨_, rfl, by decide⟩

theorem paramsLegal_symbolBits {c : Cfg} (h : c.paramsLegal = true) : c.symbolBits = 1 ∨ c.symbolBits = 2 := by
  simp only [Cfg.paramsLegal, Bool.and_eq_true, Bool.or_eq_true, decide_eq_true_eq, and_assoc] at h
  exact h.1

/-- The tick that begins the cell's first row: the symbol on the pins, the clock low, nine ticks to come. -/
theorem automatonTick_sx_symbol {s u : State} (hp : s.cfg.paramsLegal = true) (hside : s.cfg.sideEn = true)
    (hsx : sxTable s.cfg.symbolBits 1000 = some s.cfg.prog) (hrun : s.run = true) (hreq : s.haltReq = false)
    (hpc : s.pc = 0#5) (hdly : s.dly = 0#11)
    (hpull : s.srcnt ≠ s.cfg.wordWidth ∧ u = s
      ∨ s.srcnt = s.cfg.wordWidth ∧ ∃ w rest, s.q = w :: rest ∧ u = { s with sr := w, srcnt := 0, q := rest }) :
    ∃ v r, v.getLsbD 0 = u.sr.testBit (s.cfg.wordWidth - s.cfg.symbolBits)
      ∧ v.getLsbD 1 = (decide (s.cfg.symbolBits = 2) && u.sr.testBit (s.cfg.wordWidth - 1))
      ∧ automatonTick s = .next { u with
          stalled := false, side := false, sr := r, srcnt := u.srcnt + s.cfg.symbolBits, sym := v, pins := v,
          pc := 1#5, dly := 9#11 } := by
  have hn := paramsLegal_symbolBits hp
  obtain ⟨w, hprog, hw⟩ := sxTable_rows hn hsx
  have hsym : (BitVec.ofNat 2 s.cfg.symbolBits).toNat = s.cfg.symbolBits := by
    rcases hn with hn | hn <;> rw [hn] <;> rfl
  have htwo : BitVec.ofNat 2 s.cfg.symbolBits = 2#2 ↔ s.cfg.symbolBits = 2 := by
    rcases hn with hn | hn <;> simp [hn]
  have hwf : (Instr.shift ⟨true, false, 9#11⟩ (BitVec.ofNat 2 s.cfg.symbolBits) true).wellFormed s.cfg = true := by
    rcases hn with hn | hn <;> simp [Instr.wellFormed, RowHead.wellFormed, hside, hn]
  obtain ⟨v, r, hlow, hhigh, _, hexec⟩ := TimingAutomaton.shiftResult _ _ true s u hp hwf hpull
  refine ⟨v, r, by rw [hlow, hsym], by rw [hhigh]; simp only [htwo], ?_⟩
  rw [automatonTick_rowBoundary hrun hdly (by simp [hreq]), runFetchedRow_of_ok (by rw [hprog, hpc]; rfl) hw, hexec,
    hsym, hprog, hpc]
  rfl

/-- The tick that begins the cell's second row: the clock high, 39 ticks to come, and row 0 next. -/
theorem automatonTick_sx_clock {s : State} {w : RowWord} (hside : s.cfg.sideEn = true)
    (hprog : s.cfg.prog = [w, 0x18270000#32]) (hrun : s.run = true) (hreq : s.haltReq = false) (hpc : s.pc = 1#5)
    (hdly : s.dly = 0#11) :
    automatonTick s = .next { s with stalled := false, side := true, pc := 0#5, dly := 39#11 } := by
  have hwf : (Instr.nop ⟨true, true, 39#11⟩).wellFormed s.cfg = true := by
    simp [Instr.wellFormed, RowHead.wellFormed, hside]
  have hnext : BitVec.ofNat 5 (((1#5).toNat + 1) % [w, 0x18270000#32].length) = 0#5 := by simp
  rw [automatonTick_rowBoundary hrun hdly (by simp [hreq]), runFetchedRow_of_ok (by rw [hprog, hpc]; rfl) sx_clockRow,
    TimingAutomaton.nopResult _ _ hwf, hprog, hpc, hnext]
  rfl

end Sys2Proof.Machine

namespace Sys2Proof.TimingAutomaton

open Sys2Proof.Machine

/-- Settles O10: with nothing to pull the SHIFT stalls. -/
theorem emptyQueueStalls : Obligations.EmptyQueueStalls := by
  unfold Obligations.EmptyQueueStalls
  intro h n d s hw hcount hq
  have ha : autopull s = none := by
    rcases autopull_cases s with ⟨hne, _⟩ | ⟨_, _, ha⟩ | ⟨_, w, rest, hcons, _⟩
    · exact absurd hcount hne
    · exact ha
    · cases hq.symm.trans hcons
  exact exec_shift_stalls hw ha

/-- Settles O24: bits remain, so no word is pulled, and the top bits of what is left of the word are its next bits. -/
theorem shiftOutFollowsUnpack : Obligations.ShiftOutFollowsUnpack := by
  unfold Obligations.ShiftOutFollowsUnpack
  intro h n d s w hp hw _ hroom hsr
  obtain ⟨hn, _⟩ := shift_wellFormed_symbol hw
  have hpos : 0 < n.toNat ∧ n.toNat ≤ 2 := by rcases hn with rfl | rfl <;> decide
  obtain ⟨hpos, htwo⟩ := hpos
  have ha : autopull s = some s := (autopull_eq_some_iff s s).2 (.inl ⟨by omega, rfl⟩)
  refine ⟨_, exec_shift_of_autopull hw ha, rfl, ?_, ?_⟩
  · simp only [endRow_sr, endRow_srcnt, shiftEffect_sr, shiftEffect_srcnt, beginRow_cfg, beginRow_sr, beginRow_srcnt]
    rw [hsr, shiftOut_of_consumed]
  · simp only [endRow_sym, shiftEffect_sym, beginRow_cfg, beginRow_sr]
    rw [hsr, topBits_toNat_of_consumed w htwo hroom, unpackWords, List.flatMap_singleton,
      bitsVal_wordBits_segment w hroom]

/-- Settles O22: the cell is the ten ticks of the table's first row and the forty of its second. -/
theorem selectrixBitCell : Obligations.SelectrixBitCell := by
  unfold Obligations.SelectrixBitCell
  intro s u hp hside hsx hrun hreq hpc hdly hpull
  obtain ⟨v, r, hlow, hhigh, hsymbol⟩ := automatonTick_sx_symbol hp hside hsx hrun hreq hpc hdly hpull
  obtain ⟨w, hprog, _⟩ := sxTable_rows (paramsLegal_symbolBits hp) hsx
  have hu : u.cfg = s.cfg ∧ u.run = s.run ∧ u.haltReq = s.haltReq := by
    rcases hpull with ⟨_, rfl⟩ | ⟨_, _, _, _, rfl⟩
    · exact ⟨rfl, rfl, rfl⟩
    · exact ⟨rfl, rfl, rfl⟩
  obtain ⟨hcfg, hurun, hureq⟩ := hu
  rw [← hcfg] at hprog hside
  rw [hrun] at hurun
  rw [hreq] at hureq
  have hlowPhase (k : Nat) (hk : k ≤ 9) := runTicks_row (k := k) hsymbol hurun hk
  have hclock := automatonTick_sx_clock (s := { u with
    stalled := false, side := false, sr := r, srcnt := u.srcnt + s.cfg.symbolBits, sym := v, pins := v,
    pc := 1#5, dly := 0#11 }) hside hprog hurun hureq rfl rfl
  have hhighPhase (k : Nat) (hk : k ≤ 39) :=
    (runTicks_add (hlowPhase 9 le_rfl)).trans (runTicks_row (k := k) hclock hurun hk)
  constructor
  · intro k hk
    by_cases hten : k < 10
    · exact ⟨_, hlowPhase k (by omega), (decide_eq_false (by omega)).symm, hlow, hhigh⟩
    · obtain ⟨j, rfl⟩ := Nat.exists_eq_add_of_le (Nat.le_of_not_lt hten)
      exact ⟨_, hhighPhase j (by omega), (decide_eq_true (by omega)).symm, hlow, hhigh⟩
  · exact ⟨_, hhighPhase 39 le_rfl, rfl, rfl, rfl, rfl⟩

end Sys2Proof.TimingAutomaton

/-! ## Frames and words by position (42_frame_encoder.md R155, 43_word_packer.md R171)

A sequence put together from blocks of one length holds element `i` of block `b` at place `length * b + i`: from this
the layout of a frame (30_encoding.md R74) and the bits of unpacked words. -/

namespace Sys2Proof.Machine

/-! ### Blocks of one length -/

section Blocks
variable {α : Type} {f : Nat → List α} {len : Nat} (hf : ∀ b, (f b).length = len)
include hf

theorem flatMap_range_length (n : Nat) : ((List.range n).flatMap f).length = n * len := by
  simp [List.length_flatMap, hf]

theorem flatMap_range_block {n b : Nat} (hb : b < n) :
    (((List.range n).flatMap f).drop (len * b)).take len = f b := by
  obtain ⟨m, rfl⟩ := Nat.exists_eq_add_of_lt hb
  have hbefore : ((List.range b).flatMap f).length = len * b := by rw [flatMap_range_length hf, Nat.mul_comm]
  have hone : ((List.range 1).map (b + ·)).flatMap f = f b := by simp
  rw [Nat.add_assoc, List.range_add, Nat.add_comm m 1, List.range_add, List.flatMap_append, List.map_append,
    List.flatMap_append, List.drop_left' hbefore, hone, List.take_left' (hf b)]

theorem flatMap_range_getElem? {n b i : Nat} (hb : b < n) (hi : i < len) :
    ((List.range n).flatMap f)[len * b + i]? = (f b)[i]? := by
  rw [← flatMap_range_block hf hb, List.getElem?_take_of_lt hi, List.getElem?_drop]

end Blocks

/-! ### The frame (42_frame_encoder.md R155) -/

theorem exec_encodeFrame_of_length {ct : List Byte} (hct : ct.length = Config.nChannels) (tp : Bool) (s : State) :
    exec (.encodeFrame ct tp) s = .next { s with reply := .bits (encodeFrame s.cfg.addrInvert ct tp) } := by
  have hw : (Instr.encodeFrame ct tp).wellFormed s.cfg = true := decide_eq_true hct
  rw [exec, execEncodeFrame, if_pos hw, replyWith]

theorem encodeFrame_block (inv : Bool) (ct : List Byte) (tp : Bool) {b : Nat} (hb : b < 16) :
    ((encodeFrame inv ct tp).drop (96 * b)).take 96 = encodeBlock inv (BitVec.ofNat 4 b) ct tp :=
  flatMap_range_block (fun b => encodeBlock_length inv (BitVec.ofNat 4 b) ct tp) hb

/-- Bit `j` of slot `k` of a block stands behind the header and the slots before it. -/
theorem encodeBlock_getElem? (inv : Bool) (b : BitVec 4) (ct : List Byte) (tp : Bool) {k j : Nat} (hk : k < 7)
    (hj : j < 12) :
    (encodeBlock inv b ct tp)[12 + 12 * k + j]? = (encodeByte (ct.getD (b.toNat + 16 * k) Config.ctReset))[j]? := by
  have hplace : 12 + 12 * k + j = (encodeHeader inv b tp).length + (12 * k + j) := by
    rw [encodeHeader_length, Nat.add_assoc]
  rw [encodeBlock, hplace, List.getElem?_append_right (Nat.le_add_right _ _), Nat.add_sub_cancel_left]
  exact flatMap_range_getElem? (f := fun k => encodeByte (ct.getD (b.toNat + 16 * k) Config.ctReset))
    (fun _ => encodeByte_length _) hk hj

/-- Where bit `i` of a value stands in its twelve bits, `o(i)` of 30_encoding.md R74. -/
theorem encodeByte_getElem?_bit (v : Byte) {i : Nat} (hi : i < 8) :
    (encodeByte v)[[10, 9, 7, 6, 4, 3, 1, 0].getD i 0]? = some (v.getLsbD i) := by
  interval_cases i <;> rfl

theorem encodeFrame_getElem? (inv : Bool) (ct : List Byte) (tp : Bool) {a j : Nat} (ha : a < 112) (hj : j < 12) :
    (encodeFrame inv ct tp)[96 * (a % 16) + 12 + 12 * (a / 16) + j]? = (encodeByte (ct.getD a 0#8))[j]? := by
  have hchannel : (BitVec.ofNat 4 (a % 16)).toNat + 16 * (a / 16) = a := by
    rw [BitVec.toNat_ofNat]
    omega
  have hplace : 96 * (a % 16) + 12 + 12 * (a / 16) + j = 96 * (a % 16) + (12 + 12 * (a / 16) + j) := by omega
  have hin : 12 + 12 * (a / 16) + j < 96 := by omega
  have hblock : (encodeFrame inv ct tp)[96 * (a % 16) + (12 + 12 * (a / 16) + j)]?
      = (encodeBlock inv (BitVec.ofNat 4 (a % 16)) ct tp)[12 + 12 * (a / 16) + j]? :=
    flatMap_range_getElem? (fun b => encodeBlock_length inv (BitVec.ofNat 4 b) ct tp) (Nat.mod_lt _ (by decide)) hin
  rw [hplace, hblock, encodeBlock_getElem? inv _ ct tp (by omega) hj, hchannel]

/-! ### UNPACK (43_word_packer.md R171) -/

theorem unpackWords_eq_range (words : List Nat) (width : Nat) :
    unpackWords words width = (List.range words.length).flatMap (fun j => wordBits width (words.getD j 0)) := by
  have hwords : (List.range words.length).map (fun j => words.getD j 0) = words := by
    refine List.ext_getElem (by simp) fun j _ hj => ?_
    simp [hj]
  conv_lhs => rw [unpackWords, ← hwords, List.flatMap_map]

@[simp] theorem unpackWords_length (words : List Nat) (width : Nat) :
    (unpackWords words width).length = words.length * width := by
  rw [unpackWords_eq_range, flatMap_range_length fun _ => wordBits_length width _]

theorem unpackWords_getElem? (words : List Nat) {width j i : Nat} (hj : j < words.length) (hi : i < width) :
    (unpackWords words width)[j * width + i]? = some ((words.getD j 0).testBit (width - 1 - i)) := by
  rw [unpackWords_eq_range, Nat.mul_comm j, flatMap_range_getElem? (fun _ => wordBits_length width _) hj hi,
    wordBits_getElem? width _ hi]

theorem le_wordCount_mul (len : Nat) {width : Nat} (hwidth : 1 ≤ width) : len ≤ wordCount len width * width := by
  have hdiv := Nat.div_add_mod (len + width - 1) width
  have hmod := Nat.mod_lt (len + width - 1) hwidth
  rw [wordCount, Nat.mul_comm]
  omega

/-- The bits of packed words: the sequence, and past its end the zeros of the padding. -/
theorem unpackWords_packBits_getElem? (bits : Bits) {width p : Nat} (hwidth : 1 ≤ width)
    (hp : p < wordCount bits.length width * width) :
    (unpackWords (packBits bits width) width)[p]? = some (bits.getD p false) := by
  have hj : p / width < (packBits bits width).length := by
    rw [packBits_length]
    exact Nat.div_lt_of_lt_mul (Nat.mul_comm _ _ ▸ hp)
  have hi : p % width < width := Nat.mod_lt _ hwidth
  have hplace : p / width * width + p % width = p := by rw [Nat.mul_comm, Nat.div_add_mod]
  conv_lhs => rw [← hplace, unpackWords_getElem? _ hj hi, packBits_testBit hj hi, hplace]

theorem unpackWords_packBits (bits : Bits) {width : Nat} (hwidth : 1 ≤ width) :
    unpackWords (packBits bits width) width
      = bits ++ List.replicate (wordCount bits.length width * width - bits.length) false := by
  have hle := le_wordCount_mul bits.length hwidth
  refine List.ext_getElem? fun p => ?_
  by_cases hp : p < wordCount bits.length width * width
  · rw [unpackWords_packBits_getElem? bits hwidth hp, List.getElem?_append, List.getD_eq_getElem?_getD]
    split
    · next hlt => rw [List.getElem?_eq_getElem hlt, Option.getD_some]
    · next hge =>
      rw [List.getElem?_replicate, if_pos (by omega), List.getElem?_eq_none (by omega), Option.getD_none]
  · rw [List.getElem?_eq_none (by simpa using hp), List.getElem?_eq_none (by simp; omega)]

theorem exec_unpack_of_domain {words : List Nat} {width : Nat} (s : State) (hwidth : 1 ≤ width)
    (hwords : ∀ w ∈ words, w < 2 ^ width) :
    exec (.unpack words width) s = .next { s with reply := .bits (unpackWords words width) } := by
  have hw : (Instr.unpack words width).wellFormed s.cfg = true := by
    simpa [Instr.wellFormed, hwidth] using hwords
  rw [exec, execUnpack, if_pos hw, replyWith]

end Sys2Proof.Machine

namespace Sys2Proof.FrameEncoder

open Sys2Proof.Machine

/-- Settles O42: a channel's value stands in its slot of its block, and a bit at its place in the value's format. -/
theorem encodeFrameLayout : Obligations.EncodeFrameLayout := by
  unfold Obligations.EncodeFrameLayout
  intro ct tp s hct
  refine ⟨encodeFrame s.cfg.addrInvert ct tp, exec_encodeFrame_of_length hct tp s, encodeFrame_length _ ct tp,
    fun b => encodeFrame_block _ ct tp, fun a i ha hi => ?_⟩
  have hplace : [10, 9, 7, 6, 4, 3, 1, 0].getD i 0 < 12 := by interval_cases i <;> decide
  rw [encodeFrame_getElem? _ ct tp ha hplace, encodeByte_getElem?_bit _ hi]

end Sys2Proof.FrameEncoder

namespace Sys2Proof.WordPacker

open Sys2Proof.Machine

/-- Settles O46: bit by bit, what PACK put into the words comes out of them again. -/
theorem unpackInvertsPack : Obligations.UnpackInvertsPack := by
  unfold Obligations.UnpackInvertsPack
  refine ⟨fun words width s hwidth hwords => ?_, fun bits width => unpackWords_packBits bits⟩
  exact ⟨unpackWords words width, exec_unpack_of_domain s hwidth hwords, unpackWords_length words width,
    fun j i => unpackWords_getElem? words⟩

/-- Settles O48, from the length of the rebuilt bit sequence. -/
theorem frameImageSize : Obligations.FrameImageSize := by
  unfold Obligations.FrameImageSize
  intro c ct tp
  refine ⟨frameImage_length c ct tp, fun hw hv => ?_, fun hw hv => ?_⟩
  · rw [nwords, frameLength, hw, hv]; rfl
  · rw [nwords, frameLength, hw, hv]; rfl

end Sys2Proof.WordPacker

/-! ## What is refused, what is raised, and the fixed tables

The domains of the functions and the legal tables as conditions (43_word_packer.md R172, 30_encoding.md R86), and the
statements that only evaluate the model. -/

namespace Sys2Proof.Machine

theorem wellFormed_encodeBlock (c : Cfg) (b : BitVec 4) (ct : List Byte) (tp : Bool) :
    (Instr.encodeBlock b ct tp).wellFormed c = true ↔ ct.length = 112 := decide_eq_true_iff

theorem wellFormed_encodeFrame (c : Cfg) (ct : List Byte) (tp : Bool) :
    (Instr.encodeFrame ct tp).wellFormed c = true ↔ ct.length = 112 := decide_eq_true_iff

theorem wellFormed_pack (c : Cfg) (bits : Bits) (width u : Nat) :
    (Instr.pack bits width u).wellFormed c = true ↔
      1 ≤ width ∧ (u = 1 ∨ u = 2) ∧ width % u = 0 ∧ bits.length % u = 0 := by
  simp [Instr.wellFormed, and_assoc]

theorem wellFormed_unpack (c : Cfg) (words : List Nat) (width : Nat) :
    (Instr.unpack words width).wellFormed c = true ↔ 1 ≤ width ∧ ∀ w ∈ words, w < 2 ^ width := by
  simp [Instr.wellFormed]

theorem tableLegal_iff (c : Cfg) :
    tableLegal c = true ↔ 1 ≤ c.prog.length ∧ c.prog.length ≤ 32 ∧ (∀ w ∈ c.prog, rowWordLegal c w = true)
      ∧ ∃ w ∈ c.prog, isShiftWord w = true := by
  simp [tableLegal, and_assoc]

end Sys2Proof.Machine

namespace Sys2Proof.StreamerCommands

open Sys2Proof.Machine

/-- Settles O28: a table that START accepts has 1 to 32 rows, a SHIFT row among them. -/
theorem startOutsideTheDomainIsRefused : Obligations.StartOutsideTheDomainIsRefused := by
  unfold Obligations.StartOutsideTheDomainIsRefused
  intro s hsrun hrun
  constructor
  · intro hp
    rw [exec, execStart, if_neg (by simp [hsrun, hrun]), if_pos hp]
  · intro hp hbad
    refine execStart_of_illFormedTable hp (Bool.eq_false_iff.2 fun ht => ?_) hrun hsrun
    obtain ⟨hpos, hmax, _, w, hmem, hshift⟩ := (tableLegal_iff s.cfg).1 ht
    rcases hbad with hnil | hlong | hnone
    · rw [hnil] at hpos; cases hpos
    · exact Nat.not_lt.2 hmax hlong
    · exact absurd (hshift.symm.trans (hnone w hmem)) (by decide)

/-- Settles O30: a reserved command row is its own rejection. -/
theorem reservedCommandsRaise : Obligations.ReservedCommandsRaise := by
  unfold Obligations.ReservedCommandsRaise
  intro x s
  exact ⟨rfl, rfl, rfl⟩

end Sys2Proof.StreamerCommands

namespace Sys2Proof.Exceptions

open Sys2Proof.Machine

/-- Settles O47: operands outside a function's domain are not well-formed, and a row, command or PUSH is no
function. -/
theorem illFormedOperandsAreRefused : Obligations.IllFormedOperandsAreRefused := by
  unfold Obligations.IllFormedOperandsAreRefused
  intro s
  refine ⟨fun bits width u hbad => ?pack, fun b ct tp hct => ⟨?block, ?frame⟩, fun words width hbad => ?unpack,
    fun i rest hturn hi => ?call⟩
  case pack =>
    rw [exec, execPack, if_neg]
    rw [wellFormed_pack]
    rintro ⟨hwidth, hu, hw, hb⟩
    rcases hbad with ⟨h1, h2⟩ | h | h | h <;> omega
  case block => rw [exec, execEncodeBlock, if_neg (hct ∘ (wellFormed_encodeBlock s.cfg b ct tp).1)]
  case frame => rw [exec, execEncodeFrame, if_neg (hct ∘ (wellFormed_encodeFrame s.cfg ct tp).1)]
  case unpack =>
    rw [exec, execUnpack, if_neg]
    rw [wellFormed_unpack]
    rintro ⟨hwidth, hwords⟩
    rcases hbad with rfl | ⟨w, hmem, hw⟩
    · cases hwidth
    · exact Nat.not_lt.2 hw (hwords w hmem)
  case call =>
    rw [step_of_turns_cons s _ rest hturn]
    exact callFunction_of_not_isFunction _ hi

end Sys2Proof.Exceptions

namespace Sys2Proof.TimingAutomaton

open Sys2Proof.Machine

/-- Settles O23: each table is computed from its assembly form, and so is its legality. -/
theorem protocolTablesAreThePrintedWords : Obligations.ProtocolTablesAreThePrintedWords := by
  unfold Obligations.ProtocolTablesAreThePrintedWords
  have hdcc : dccTable 1000 = some [0x20000001#32, 0xA0000105#32, 0x40630001#32, 0x40600000#32, 0x80000000#32,
      0x40390001#32, 0x40370000#32] := by decide
  have hrc : dccRcTable 20 1000 = some [0xC0000003#32, 0x59C10000#32, 0x70000013#32, 0x20000001#32, 0xA0000008#32,
      0x40390001#32, 0x40350000#32, 0x80000000#32, 0x40630001#32, 0x40600000#32] := by decide
  have hmm : mmTable 26 182 1000 = some [0x20000001#32, 0xA0000105#32, 0x40190001#32, 0x40B20000#32, 0x80000000#32,
      0x40B50001#32, 0x40170000#32] := by decide
  have hmfx : mfxTable 1 50 1000 = some [0x20310101#32] := by decide
  refine ⟨sxTable_one, sxTable_two, by decide, hdcc, hrc, hmm, hmfx, ?_, ?_, ?_⟩
  · rw [sxTable_one, hrc]
    simp only [List.forall_mem_cons, Option.some.injEq, forall_eq']
    exact ⟨by decide, by decide, List.forall_mem_nil _⟩
  · rw [hdcc, hmm, hmfx]
    simp only [List.forall_mem_cons, Option.some.injEq, forall_eq']
    exact ⟨by decide, by decide, by decide, List.forall_mem_nil _⟩
  · rw [sxTable_two]
    simp only [Option.some.injEq, forall_eq']
    decide

end Sys2Proof.TimingAutomaton

namespace Sys2Proof.WholeMachine

open Sys2Proof.Machine

/-- Settles O49: an empty table reads as reset everywhere; the registers are as written. -/
theorem resetLeavesWhatTheSpecSays : Obligations.ResetLeavesWhatTheSpecSays := by
  unfold Obligations.ResetLeavesWhatTheSpecSays
  exact ⟨Memory.read_nil, rfl, rfl, rfl, rfl, rfl, rfl, rfl, rfl, rfl, rfl, rfl, rfl, rfl, rfl, rfl, rfl⟩

end Sys2Proof.WholeMachine
